-- ==== Sys2Proof/Word.lean ====
section
/-! DEFINITION. The word widths of SPI-ITE (spec/00_scope.md R8: LEN_W = ADDR_W = 32, REG_W = 16; log 11). -/

namespace Sys2Proof

/-- One byte of buffer memory, and one 8-bit data frame. -/
abbrev Byte := BitVec 8

/-- A register of the register window, REG_W = 16 bits (R8), and one 16-bit data frame. -/
abbrev Half := BitVec 16

/-- A byte address of the buffer memory, ADDR_W = 32 bits (R8, decision D3). -/
abbrev Addr := BitVec 32

/-- A remaining byte count, LEN_W = 32 bits, unsigned (R8, decision D2). -/
abbrev Len := BitVec 32

/-- A command word of format C (R100, R101). -/
abbrev CmdWord := BitVec 72

/-- A step selector of format U, the bits dir and sel (R106). -/
abbrev StepWord := BitVec 3

/-- A tail selector of format T, the bits dir and z (R107). -/
abbrev TailWord := BitVec 2

/-- The event of format E, the interrupt request level (R108). -/
abbrev EventWord := BitVec 1

/-- A response code (R105). -/
abbrev RespCode := BitVec 2

/-- NULL, the cleared cursor value (R8). -/
abbrev nullAddr : Addr := 0

end Sys2Proof
end

