-- ==== Sys2Proof/Syntax.lean ====
section
/-! DEFINITION. The fourteen encoded operations of SPI-ITE (spec/00_scope.md R5, spec/opcode_table.json). -/

namespace Sys2Proof

/-- The two directions (R10); code 0 is transmit, code 1 receive (R106, R142). -/
inductive Dir where
  | tx
  | rx
  deriving DecidableEq, Repr, Inhabited

/-- The unit width of a data frame: one byte or two (R12). -/
inductive FrameWidth where
  | w8
  | w16
  deriving DecidableEq, Repr, Inhabited

/-- The configuration record (R36), with the field widths of R104. -/
structure Cfg where
  baud     : BitVec 3
  cpha     : BitVec 1
  cpol     : BitVec 1
  /-- data-frame-format width: 0 = 8-bit, 1 = 16-bit -/
  dff      : BitVec 1
  /-- 0 = slave, 1 = master -/
  mode     : BitVec 1
  /-- 0 = MSB first, 1 = LSB first -/
  lsbfirst : BitVec 1
  busmode  : BitVec 2
  ssm      : BitVec 1
  deriving DecidableEq, Repr, Inhabited

/-- One constructor per row of spec/opcode_table.json. -/
inductive Instr where
  /-- `INIT cfg` (R200) -/
  | init (c : Cfg)
  /-- `SUBMIT_TX buf, len` (R150) -/
  | submitTx (buf : Addr) (len : Len)
  /-- `SUBMIT_RX buf, len` (R151) -/
  | submitRx (buf : Addr) (len : Len)
  /-- `FLAG_STATUS flag`, the flag as its mask on SR (R140, R112) -/
  | flagStatus (mask : Half)
  /-- `GET_STATE d` (R142) -/
  | getState (d : Dir)
  /-- `BLK_TX buf, len` (R190) -/
  | blkTx (buf : Addr) (len : Len)
  /-- `BLK_RX buf, len` (R191) -/
  | blkRx (buf : Addr) (len : Len)
  /-- `STEP_TX8` (R161) -/
  | stepTx8
  /-- `STEP_TX16` (R162) -/
  | stepTx16
  /-- `STEP_RX8` (R163) -/
  | stepRx8
  /-- `STEP_RX16` (R164) -/
  | stepRx16
  /-- `CLOSE_TX` (R165) -/
  | closeTx
  /-- `CLOSE_RX` (R166) -/
  | closeRx
  /-- `IRQ_DISPATCH` (R180) -/
  | irqDispatch
  deriving DecidableEq, Repr

/-- An operation word in one of the four formats (R100): C crosses the command port, U and T are the
selectors the dispatcher and a step form, E is the event. -/
inductive OpWord where
  | c (w : CmdWord)
  | u (w : StepWord)
  | t (w : TailWord)
  | e (w : EventWord)
  deriving DecidableEq, Repr

end Sys2Proof
end

