-- ==== Sys2Proof/Config.lean ====
section
/-! DEFINITION. What is fixed for the machine: bit positions and offsets, the parameter record of R8, what the
outside may do (turns), and the free values. -/

namespace Sys2Proof

namespace Config

/-- BIT_DFF, the frame-width selector bit of CR1 (R8, R71; the spec's general knowledge GK2, log 11). -/
abbrev bitDff : Nat := 11
/-- BIT_TXEIE, the transmit interrupt-enable bit of CR2 (R8, R71; log 11). -/
abbrev bitTxeie : Nat := 7
/-- BIT_RXNEIE, the receive interrupt-enable bit of CR2 (R8, R71; log 11). -/
abbrev bitRxneie : Nat := 6
/-- BIT_RXNE, the receive-not-empty flag of SR (R8, R71; log 11). -/
abbrev bitRxne : Nat := 0
/-- BIT_TXE, the transmit-empty flag of SR (R8, R71; log 11). -/
abbrev bitTxe : Nat := 1
/-- BIT_BSY, the bus-busy flag of SR (R8, R71; log 11). -/
abbrev bitBsy : Nat := 7

/-- Byte offsets of CR1, CR2, SR, DR in the register window (R71; the spec's general knowledge GK1, log 11). -/
abbrev offCr1 : Addr := 0x00
abbrev offCr2 : Addr := 0x04
abbrev offSr : Addr := 0x08
abbrev offDr : Addr := 0x0C

/-- FREE VALUE. BASE, the byte address of the register window: OPEN, and no rule depends on it (R71; log 18). -/
opaque base : Addr

/-- FREE VALUE. The bits of InitCR1 other than DFF: "any function from the configuration record to a 16-bit value
such that InitCR1(cfg)[BIT_DFF] = cfg.dff" (R201; log 7). -/
opaque freeInitCr1 : Cfg → Half

end Config

/-- BYTE_ORDER (R8, R73). -/
inductive ByteOrder where
  | little
  | big
  deriving DecidableEq, Repr, Inhabited

/-- ALIGN16_POLICY (R8, R74). -/
inductive AlignPolicy where
  /-- two byte accesses, low address first -/
  | split
  /-- the model fault Misaligned16 -/
  | fault
  deriving DecidableEq, Repr, Inhabited

/-- PeriphEnv, which environment the peripheral is (R8, R202). -/
inductive PeriphEnv where
  /-- FreeEnv, normative (R203) -/
  | free
  /-- RefEnv, the reference simulator (R204 to R206) -/
  | ref
  deriving DecidableEq, Repr, Inhabited

/-- Which InitCR1 the machine has (R8, R201; log 7). -/
inductive InitCr1Kind where
  /-- any function that keeps the DFF equation -/
  | free
  /-- the reference layout of R201 -/
  | reference
  deriving DecidableEq, Repr, Inhabited

/-- The parameter record of R8, for the parameters that select a behaviour. -/
structure Params where
  byteOrder    : ByteOrder
  align        : AlignPolicy
  /-- ATOMIC_HOST: host commands run inside a critical section (R80) -/
  atomicHost   : Bool
  /-- STRICT_LENGTH: odd length with 16-bit frames is rejected at submit (R155) -/
  strictLength : Bool
  /-- BOUNDS_CHECK: step accesses are checked against the lent span (R46) -/
  boundsCheck  : Bool
  env          : PeriphEnv
  initCr1      : InitCr1Kind
  deriving DecidableEq, Repr, Inhabited

/-- One step of the peripheral (R203 to R206, trace lines `P:` of R111). -/
inductive PeriphAct where
  /-- `P: TXE=b` -/
  | txe (b : Bool)
  /-- `P: BSY=b` -/
  | bsy (b : Bool)
  /-- clear RXNE (FreeEnv only) -/
  | clearRxne
  /-- `P: RX v`: deliver a frame -/
  | rx (v : Half)
  /-- change an opaque bit of SR (FreeEnv only) -/
  | opaqueBit (k : Fin 16) (b : Bool)
  deriving DecidableEq, Repr, Inhabited

/-- An entry of HOST's script: a command, or the pseudo-operation `WAIT_FREE d`, which has no word of its own (R111;
log 22). -/
inductive ScriptItem where
  /-- one command word -/
  | command (w : CmdWord)
  /-- `WAIT_FREE d`, "repeat GET_STATE d until FREE" -/
  | waitFree (d : Dir)
  deriving DecidableEq, Repr, Inhabited

/-- One line of the trace notation of R111: which agent moves, and by how much (log 1). -/
inductive Turn where
  /-- HOST starts the command w: hph leaves IDLE for the command's first line (R230 (d)) -/
  | hostStart (w : CmdWord)
  /-- `H: <command>.<phase>`: HOST takes the next micro-step of the command in progress -/
  | hostMicro
  /-- `H: <command>`: HOST runs the command w with no other agent stepping inside it -/
  | hostOp (w : CmdWord)
  /-- the next command of HOST's script, run whole, the pseudo-operation that gives it moved on (R111) -/
  | scriptOp
  /-- HOST goes on with its script by one move: the next command started, or the next line of the one in progress -/
  | scriptMicro
  /-- DISP starts a dispatch: dph leaves IDLE for I0 (R230 (b)) -/
  | dispStart
  /-- `D: IRQ.<phase>`: DISP takes the next micro-step of the dispatch -/
  | dispMicro
  /-- `D: IRQ`, or the step or close at whose first line DISP stands, with no other agent stepping inside it -/
  | dispOp
  /-- `P:`, one step of the peripheral -/
  | periph (a : PeriphAct)
  deriving DecidableEq, Repr, Inhabited

/-- FREE VALUE. Which agent moves next, and what the outside presents, when nothing has been decided yet
(R30 "the schedule (which agent steps next)", R203, R230; log 1). -/
opaque Config.freeTurn : Nat → Turn

end Sys2Proof
end

