-- ==== Sys2Proof/WellFormed.lean ====
section
/-! DEFINITION. Which instructions are well formed: the operand values the spec admits. -/

namespace Sys2Proof

/-- The three valid flag identifiers, each the mask of its bit of SR (R112). -/
def validFlagMask (m : Half) : Bool :=
  m == BitVec.twoPow 16 Config.bitTxe || m == BitVec.twoPow 16 Config.bitRxne ||
    m == BitVec.twoPow 16 Config.bitBsy

/-- Every operand value is admitted (R102: every a, b is legal, R104, R109 (e)), but for the flag identifier of
`FLAG_STATUS` (R141). -/
def Instr.wellFormed : Instr → Bool
  | .init _ => true
  | .submitTx _ _ => true
  | .submitRx _ _ => true
  | .flagStatus m => validFlagMask m
  | .getState _ => true
  | .blkTx _ _ => true
  | .blkRx _ _ => true
  | .stepTx8 => true
  | .stepTx16 => true
  | .stepRx8 => true
  | .stepRx16 => true
  | .closeTx => true
  | .closeRx => true
  | .irqDispatch => true

end Sys2Proof
end

