-- ==== Sys2Proof/Decode.lean ====
section
/-! DEFINITION. The decoder, total on every operation word and rejecting by name, and the encoder
(spec/30_encoding.md). -/

namespace Sys2Proof

/-- Why a word is no operation (R106, R107, R108, R109). -/
inductive Reject where
  /-- no row of R102 matches the command word (R109 (a)) -/
  | reservedCommand (w : CmdWord)
  /-- `FLAG_STATUS` with a mask that is no valid identifier (R109 (d), R141) -/
  | invalidFlagId (m : Half)
  /-- the null reference, sel = NONE (R106) -/
  | nullStep (d : Dir)
  /-- sel = 0b11 (R106) -/
  | reservedSel (d : Dir)
  /-- z = 0: the step has no tail (R107) -/
  | noTail (d : Dir)
  /-- irq = 0: no request (R108) -/
  | noRequest
  deriving DecidableEq, Repr

/-- Bits 71:64 of a command word (R101). -/
def opField (w : CmdWord) : BitVec 8 := w.extractLsb' 64 8
/-- Bits 63:32 of a command word (R101). -/
def aField (w : CmdWord) : BitVec 32 := w.extractLsb' 32 32
/-- Bits 31:0 of a command word (R101). -/
def bField (w : CmdWord) : BitVec 32 := w.extractLsb' 0 32

/-- The configuration word's fields (R104). -/
def unpackCfg (a : BitVec 11) : Cfg where
  baud := a.extractLsb' 0 3
  cpha := a.extractLsb' 3 1
  cpol := a.extractLsb' 4 1
  dff := a.extractLsb' 5 1
  mode := a.extractLsb' 6 1
  lsbfirst := a.extractLsb' 7 1
  busmode := a.extractLsb' 8 2
  ssm := a.extractLsb' 10 1

/-- The configuration word of a record (R104). -/
def packCfg (c : Cfg) : BitVec 11 :=
  c.ssm ++ c.busmode ++ c.lsbfirst ++ c.mode ++ c.dff ++ c.cpol ++ c.cpha ++ c.baud

/-- The direction a selector bit names: 0 transmit, 1 receive (R106, R142). -/
def Dir.ofBit (b : BitVec 1) : Dir := if b = 0 then .tx else .rx

/-- The selector bit of a direction (R106, R142). -/
def Dir.bit : Dir → BitVec 1
  | .tx => 0
  | .rx => 1

/-- Format C (R101, R102). -/
def decodeC (w : CmdWord) : Except Reject Instr :=
  let a := aField w
  let b := bField w
  match (opField w).toNat with
  | 1 =>
    if a.extractLsb' 11 21 = 0 ∧ b = 0 then .ok (.init (unpackCfg (a.extractLsb' 0 11)))
    else .error (.reservedCommand w)
  | 2 => .ok (.submitTx a b)
  | 3 => .ok (.submitRx a b)
  | 4 =>
    if a = 0 ∧ b.extractLsb' 16 16 = 0 then
      if validFlagMask (b.extractLsb' 0 16) then .ok (.flagStatus (b.extractLsb' 0 16))
      else .error (.invalidFlagId (b.extractLsb' 0 16))
    else .error (.reservedCommand w)
  | 5 =>
    if a = 0 ∧ b.extractLsb' 1 31 = 0 then .ok (.getState (Dir.ofBit (b.extractLsb' 0 1)))
    else .error (.reservedCommand w)
  | 6 => .ok (.blkTx a b)
  | 7 => .ok (.blkRx a b)
  | _ => .error (.reservedCommand w)

/-- Format U, the step selector (R106). -/
def decodeU (w : StepWord) : Except Reject Instr :=
  match w.toNat with
  | 0 => .error (.nullStep .tx)
  | 1 => .ok .stepTx8
  | 2 => .ok .stepTx16
  | 3 => .error (.reservedSel .tx)
  | 4 => .error (.nullStep .rx)
  | 5 => .ok .stepRx8
  | 6 => .ok .stepRx16
  | _ => .error (.reservedSel .rx)

/-- Format T, the tail selector (R107). -/
def decodeT (w : TailWord) : Except Reject Instr :=
  match w.toNat with
  | 0 => .error (.noTail .tx)
  | 1 => .ok .closeTx
  | 2 => .error (.noTail .rx)
  | _ => .ok .closeRx

/-- Format E, the event (R108). -/
def decodeE (w : EventWord) : Except Reject Instr :=
  match w.toNat with
  | 1 => .ok .irqDispatch
  | _ => .error .noRequest

/-- The decoder over the four formats (R100). -/
def decode : OpWord → Except Reject Instr
  | .c w => decodeC w
  | .u w => decodeU w
  | .t w => decodeT w
  | .e w => decodeE w

/-- A command word from its three fields (R101). -/
def cmdWord (op : BitVec 8) (a b : BitVec 32) : CmdWord := op ++ a ++ b

/-- The word of an instruction (R102, R104, R106, R107, R108). -/
def encode : Instr → OpWord
  | .init c => .c (cmdWord 1 (0#21 ++ packCfg c) 0)
  | .submitTx a b => .c (cmdWord 2 a b)
  | .submitRx a b => .c (cmdWord 3 a b)
  | .flagStatus m => .c (cmdWord 4 0 (0#16 ++ m))
  | .getState d => .c (cmdWord 5 0 (0#31 ++ d.bit))
  | .blkTx a b => .c (cmdWord 6 a b)
  | .blkRx a b => .c (cmdWord 7 a b)
  | .stepTx8 => .u 0b001
  | .stepTx16 => .u 0b010
  | .stepRx8 => .u 0b101
  | .stepRx16 => .u 0b110
  | .closeTx => .t 0b01
  | .closeRx => .t 0b11
  | .irqDispatch => .e 1

/-- One row of R102 as a match and a mask over the 72-bit word. -/
structure Row where
  mnemonic : String
  mask     : CmdWord
  pattern  : CmdWord
  deriving DecidableEq, Repr

/-- Does the word match the row: "mask bit 1 = the bit must equal the match bit" (R102). -/
def Row.hits (r : Row) (w : CmdWord) : Bool := w &&& r.mask == r.pattern

/-- The seven rows of R102. -/
def commandRows : List Row :=
  [⟨"INIT", 0xFFFFFFF800FFFFFFFF, 0x010000000000000000⟩,
   ⟨"SUBMIT_TX", 0xFF0000000000000000, 0x020000000000000000⟩,
   ⟨"SUBMIT_RX", 0xFF0000000000000000, 0x030000000000000000⟩,
   ⟨"FLAG_STATUS", 0xFFFFFFFFFFFFFF0000, 0x040000000000000000⟩,
   ⟨"GET_STATE", 0xFFFFFFFFFFFFFFFFFE, 0x050000000000000000⟩,
   ⟨"BLK_TX", 0xFF0000000000000000, 0x060000000000000000⟩,
   ⟨"BLK_RX", 0xFF0000000000000000, 0x070000000000000000⟩]

/-- The operation word of a row of spec/opcode_table.json given as bits. The table's widths are 72 (format C),
3 (U), 2 (T) and 1 (E); three formats share one whole byte, and there the width does not say which: 8 bits are read
as format U, but for the value 3, which format U reserves (log 15). -/
def tableWord (nbits w : Nat) : Option OpWord :=
  if nbits = 72 then (if w < 2 ^ 72 then some (.c (BitVec.ofNat 72 w)) else none)
  else if nbits = 3 then (if w < 8 then some (.u (BitVec.ofNat 3 w)) else none)
  else if nbits = 2 then (if w < 4 then some (.t (BitVec.ofNat 2 w)) else none)
  else if nbits = 1 then (if w < 2 then some (.e (BitVec.ofNat 1 w)) else none)
  else if nbits = 8 then
    (if w = 3 then some (.t 3) else if w < 8 then some (.u (BitVec.ofNat 3 w)) else none)
  else none

/-- The instruction the decoder reads from a row's word. -/
def decodeTableWord (nbits w : Nat) : Option Instr :=
  match tableWord nbits w with
  | some ow =>
    match decode ow with
    | .ok i => some i
    | .error _ => none
  | none => none

end Sys2Proof
end

