-- ==== Sys2Proof/Machine/State.lean ====
section
/-! DEFINITION. The whole state of SPI-ITE (spec/10_state.md R30), and its reset value (R45). Plain data. -/

namespace Sys2Proof.Machine

open Sys2Proof

/-- Bus state of a direction: FREE = 0, BUSY = 1 (R31, decision D6). -/
inductive BusState where
  | free
  | busy
  deriving DecidableEq, Repr, Inhabited

/-- The step reference of a descriptor: NONE = 0b00, W8 = 0b01, W16 = 0b10, 0b11 reserved (R31, decision D7). -/
inductive Sel where
  | none
  | w8
  | w16
  | reserved
  deriving DecidableEq, Repr, Inhabited

/-- A Transfer Descriptor (R31). -/
structure Desc where
  /-- remaining byte count -/
  len   : Len
  /-- current buffer cursor -/
  cur   : Addr
  /-- bus state -/
  state : BusState
  /-- selected step function -/
  sel   : Sel
  deriving DecidableEq, Repr, Inhabited

/-- The closed descriptor (R34). -/
def Desc.closed : Desc := ⟨0, nullAddr, .free, .none⟩

/-- A ghost span, the addresses [buf, buf + len) a caller has lent (R46). -/
structure Span where
  buf : Addr
  len : Len
  deriving DecidableEq, Repr, Inhabited

/-- The buffer memory: the bytes that differ from what an unlisted address reads as, by rising address (R72). -/
abbrev Memory := List Host.Cell

/-- An entry of the transmit log: a width and a value of that width (R43). -/
inductive LogEntry where
  | b8 (v : Byte)
  | b16 (v : Half)
  deriving DecidableEq, Repr, Inhabited

/-- Who made a buffer access: a step of a direction, or a blocking command (R195, R222). -/
inductive Accessor where
  | step (d : Dir)
  | blkTx
  | blkRx
  deriving DecidableEq, Repr, Inhabited

/-- The model faults of R222: raised where the source gives the hardware no meaning. A fault is recorded in State
(hfault, dfault), the agent that raised it takes no further step, and a turn that schedules this agent again is
answered by the fault (log 4). Each is safe: the chip goes on where the model stops. -/
inductive Fault where
  /-- code 0x10: `IRQ_DISPATCH` I2 or I5, the gate passed and sel = NONE (R185). Safe. -/
  | nullStep (d : Dir)
  /-- code 0x11: `IRQ_DISPATCH` I2 or I5, the gate passed and sel = 0b11 (R185). Safe. -/
  | reservedSel (d : Dir)
  /-- code 0x12: a two-byte buffer access at an odd address and ALIGN16_POLICY = fault, raised by `STEP_TX16`,
  `STEP_RX16`, `BLK_TX`, `BLK_RX` (R74). Safe. -/
  | misaligned16 (who : Accessor) (addr : Addr)
  /-- code 0x13: a step's buffer access with a byte outside the lent span and BOUNDS_CHECK true (R46). Safe. -/
  | bufferBounds (d : Dir) (addr : Addr)
  deriving DecidableEq, Repr, Inhabited

/-- The refusals of R222: no step is taken (log 5). Each is safe: the chip cannot express the refused command, or
does what the source does not describe. -/
inductive Refusal where
  /-- An instruction whose meaning this model does not have yet; raised by no arm today. Safe. -/
  | notModelled (mnemonic : String)
  /-- code 0x20: the command word matches no row of R102; raised where a command is decoded (R109). Safe. -/
  | reservedCommand (w : CmdWord)
  /-- code 0x21: `FLAG_STATUS` with a mask that is no valid identifier (R141). Safe. -/
  | invalidFlagId (m : Half)
  /-- code 0x22: `INIT` line N0 while a descriptor is BUSY (R200). Safe. -/
  | initWhileBusy
  deriving DecidableEq, Repr, Inhabited

/-- Lines of `INIT` (R200). -/
inductive InitLine where
  | n0
  | n1
  deriving DecidableEq, Repr, Inhabited

/-- Lines of `SUBMIT_TX` and `SUBMIT_RX`, with the temporaries c1, c2 (R150, R151, R155). -/
inductive SubmitLine where
  | s0
  /-- the line STRICT_LENGTH inserts (R155) -/
  | s0b
  | s1
  | s2
  | s3
  | s4
  | s5 (c1 : Half)
  | s6
  | s7 (c2 : Half)
  deriving DecidableEq, Repr, Inhabited

/-- Lines of `FLAG_STATUS`, with the temporary s (R140). -/
inductive FlagLine where
  | f0
  | f1 (s : Half)
  deriving DecidableEq, Repr, Inhabited

/-- Lines of `GET_STATE`, with the temporary t (R142). -/
inductive GetLine where
  | g0
  | g1 (t : BusState)
  deriving DecidableEq, Repr, Inhabited

/-- Lines of `BLK_TX` and `BLK_RX`, with the locals p, n and the temporaries w, x, v (R190, R191). In b5 and b5b x is
the unit in transit, as a 16-bit value. -/
inductive BlkLine where
  | b0
  | b1 (p : Addr) (n : Len)
  | b2 (p : Addr) (n : Len)
  | b3 (p : Addr) (n : Len)
  | b4 (p : Addr) (n : Len) (w : FrameWidth)
  /-- second half of a split read: the byte at p has been read (R75) -/
  | b4b (p : Addr) (n : Len) (w : FrameWidth) (first : Byte)
  | b5 (p : Addr) (n : Len) (w : FrameWidth) (x : Half)
  /-- second half of a split write: the byte at p has been written (R75) -/
  | b5b (p : Addr) (n : Len) (w : FrameWidth) (x : Half)
  | b6 (p : Addr) (n : Len) (w : FrameWidth)
  | b7
  | b8
  deriving DecidableEq, Repr, Inhabited

/-- The host phase hph: IDLE, or the command in progress with its operands and the next line (R41). -/
inductive HostPhase where
  | idle
  | init (c : Cfg) (ln : InitLine)
  | submit (d : Dir) (buf : Addr) (len : Len) (ln : SubmitLine)
  | flag (m : Half) (ln : FlagLine)
  | getState (d : Dir) (ln : GetLine)
  | blk (d : Dir) (buf : Addr) (len : Len) (ln : BlkLine)
  deriving DecidableEq, Repr, Inhabited

/-- Lines of a transmit step, with the temporary x (R161, R162). -/
inductive TxLine where
  | t0
  /-- second half of a split read: the byte at TX.cur has been read (R75) -/
  | t0b (first : Byte)
  | t1 (x : Half)
  | t2
  | t3
  | t4
  deriving DecidableEq, Repr, Inhabited

/-- Lines of a receive step, with the temporary v (R163, R164). -/
inductive RxLine where
  | t0
  | t1 (v : Half)
  /-- second half of a split write: the byte at RX.cur has been written (R75) -/
  | t1b (v : Half)
  | t2
  | t3
  | t4
  deriving DecidableEq, Repr, Inhabited

/-- Lines of `CLOSE_TX` and `CLOSE_RX`, with the temporary c2 (R165, R166). -/
inductive CloseLine where
  | k0
  | k1 (c2 : Half)
  | k2
  | k3
  | k4
  | k5
  deriving DecidableEq, Repr, Inhabited

/-- The dispatcher phase dph: IDLE, the next line of `IRQ_DISPATCH` with its temporaries e and s, or the next line of
the step or close it has invoked (R41, R180). -/
inductive DispPhase where
  | idle
  | i0
  | i1 (e : Half)
  | i2 (e s : Half)
  | i3
  | i4 (e : Half)
  | i5 (e s : Half)
  | stepTx (w : FrameWidth) (ln : TxLine)
  | stepRx (w : FrameWidth) (ln : RxLine)
  | close (d : Dir) (ln : CloseLine)
  deriving DecidableEq, Repr, Inhabited

/-- The whole state (R30). par, script, sched and tick are the model's own (logs 1, 6 and 22). -/
structure State where
  /-- the parameters of R8; no step changes them -/
  par    : Params
  /-- the transmit descriptor TX -/
  tx     : Desc
  /-- the receive descriptor RX -/
  rx     : Desc
  /-- the configuration copy (R36) -/
  cfg    : Cfg
  cr1    : Half
  cr2    : Half
  sr     : Half
  /-- the side of DR that DR_WR writes (R40) -/
  drTx   : Half
  /-- the side of DR that DR_RD reads (R40) -/
  drRx   : Half
  mem    : Memory
  hph    : HostPhase
  dph    : DispPhase
  txlog  : List LogEntry
  /-- the response port: the value of the last respond (R43) -/
  resp   : Option RespCode
  txSpan : Option Span
  rxSpan : Option Span
  /-- the fault HOST has raised (R222) -/
  hfault : Option Fault
  /-- the fault DISP has raised (R222) -/
  dfault : Option Fault
  /-- what the foreground has still to issue, pseudo-operations included (R111; log 22) -/
  script : List ScriptItem
  /-- the turns already decided -/
  sched  : List Turn
  /-- how many free turns have been drawn -/
  tick   : Nat
  deriving DecidableEq, Repr

/-- The parameters at reset: the defaults of R8 where it gives one; ALIGN16_POLICY and BOUNDS_CHECK at the value that
performs the access (log 6). -/
def Params.atReset : Params where
  byteOrder := .little
  align := .split
  atomicHost := false
  strictLength := false
  boundsCheck := false
  env := .free
  initCr1 := .free

/-- The launch state (R45, R250). -/
def State.reset : State where
  par := Params.atReset
  tx := Desc.closed
  rx := Desc.closed
  cfg := ⟨0, 0, 0, 0, 0, 0, 0, 0⟩
  cr1 := 0x0000
  cr2 := 0x0000
  sr := 0x0002
  drTx := 0x0000
  drRx := 0x0000
  mem := []
  hph := .idle
  dph := .idle
  txlog := []
  resp := none
  txSpan := none
  rxSpan := none
  hfault := none
  dfault := none
  script := []
  sched := []
  tick := 0

/-- The three outcomes of a step of this machine. -/
abbrev Outcome := Host.Outcome State Fault Refusal

end Sys2Proof.Machine
end

