-- ==== Sys2Proof/Machine/Flags.lean ====
section
/-! DEFINITION. Bits of the registers: the status flags, the enable bits, the request line (R38, R39, R210). -/

namespace Sys2Proof.Machine

open Sys2Proof

/-- `v | (1 << k)` (R132). -/
def setBit (v : Half) (k : Nat) : Half := v ||| BitVec.twoPow 16 k

/-- `v & ~(1 << k)` (R133). -/
def clrBit (v : Half) (k : Nat) : Half := v &&& ~~~ BitVec.twoPow 16 k

/-- Bit k of v given the value b. -/
def putBit (v : Half) (k : Nat) (b : Bool) : Half := if b then setBit v k else clrBit v k

/-- The enable bit of a direction in CR2 (R39). -/
def enableBit : Dir → Nat
  | .tx => Config.bitTxeie
  | .rx => Config.bitRxneie

/-- The status flag of a direction in SR (R38). -/
def flagBit : Dir → Nat
  | .tx => Config.bitTxe
  | .rx => Config.bitRxne

/-- The gate of a direction on the values read from CR2 and SR: enable bit set AND status flag set (R181). -/
def gateOpen (d : Dir) (e s : Half) : Bool := e.getLsbD (enableBit d) && s.getLsbD (flagBit d)

/-- The frame width DFF selects: 0 is 8-bit, 1 is 16-bit (R37, R110). -/
def dffWidth (c1 : Half) : FrameWidth := if c1.getLsbD Config.bitDff then .w16 else .w8

/-- The flags TXE, RXNE, BSY of SR (R38). -/
def State.txe (s : State) : Bool := s.sr.getLsbD Config.bitTxe
def State.rxne (s : State) : Bool := s.sr.getLsbD Config.bitRxne
def State.bsy (s : State) : Bool := s.sr.getLsbD Config.bitBsy

/-- The enable bit of a direction is set in CR2 (R39). -/
def State.enabled (s : State) (d : Dir) : Bool := s.cr2.getLsbD (enableBit d)

/-- The status flag of a direction is set in SR (R38). -/
def State.flagged (s : State) (d : Dir) : Bool := s.sr.getLsbD (flagBit d)

/-- irq, the interrupt request level (R210). -/
def State.irq (s : State) : Bool :=
  (s.cr2.getLsbD Config.bitTxeie && s.sr.getLsbD Config.bitTxe) ||
    (s.cr2.getLsbD Config.bitRxneie && s.sr.getLsbD Config.bitRxne)

/-- An opaque bit of SR: none of the three flags (R40). -/
def opaqueSrBit (k : Nat) : Bool := k != Config.bitTxe && k != Config.bitRxne && k != Config.bitBsy

end Sys2Proof.Machine
end

