-- ==== Sys2Proof/Machine/Memory.lean ====
section
/-! DEFINITION. The buffer memory MEM: bytes, and units of one or two bytes (R72, R73). -/

namespace Sys2Proof.Machine

open Sys2Proof

/-- What an address that is not listed reads as: the spec says MEM is supplied by the launch (R45, R250).
DESIGN CHOICE (log 8), unsafe. -/
def Memory.blank : Byte := 0

/-- The byte at an address. -/
def Memory.read : Memory → Nat → Byte
  | [], _ => Memory.blank
  | (a, b) :: m, k => if k = a then b else Memory.read m k

/-- The byte at an address replaced, in canonical form. -/
def Memory.write : Memory → Nat → Byte → Memory
  | [], k, v => if v = Memory.blank then [] else [(k, v)]
  | (a, b) :: m, k, v =>
    if k < a then (if v = Memory.blank then (a, b) :: m else (k, v) :: (a, b) :: m)
    else if k = a then (if v = Memory.blank then m else (k, v) :: m)
    else (a, b) :: Memory.write m k v

/-- The canonical form, from an address on: addresses rise strictly, lie in the address space, and no entry holds
what an unlisted address reads as. -/
def Memory.wfFrom : Nat → Memory → Bool
  | _, [] => true
  | lo, (a, b) :: m => decide (lo ≤ a) && decide (a < 2 ^ 32) && decide (b ≠ Memory.blank) && Memory.wfFrom (a + 1) m

/-- The canonical form of a memory. -/
def Memory.wf (m : Memory) : Bool := Memory.wfFrom 0 m

/-- A 16-bit value from the byte at the lower address and the byte at the next (R73). -/
def assemble : ByteOrder → Byte → Byte → Half
  | .little, first, second => second ++ first
  | .big, first, second => first ++ second

/-- The byte of a 16-bit value that is stored at the lower address (R73). -/
def firstByte : ByteOrder → Half → Byte
  | .little, v => v.extractLsb' 0 8
  | .big, v => v.extractLsb' 8 8

/-- The byte of a 16-bit value that is stored at the next address (R73). -/
def secondByte : ByteOrder → Half → Byte
  | .little, v => v.extractLsb' 8 8
  | .big, v => v.extractLsb' 0 8

/-- `MEM[a]` (R10). -/
def State.byteAt (s : State) (a : Addr) : Byte := s.mem.read a.toNat

/-- `MEM[a] <- v` (R10). -/
def State.putByte (s : State) (a : Addr) (v : Byte) : State := { s with mem := s.mem.write a.toNat v }

/-- `MemRead(a, w)`: one or two bytes, the address a + 1 modulo 2^32 (R73). An 8-bit unit stands in bits 7:0. -/
def State.readUnit (s : State) (w : FrameWidth) (a : Addr) : Half :=
  match w with
  | .w8 => (s.byteAt a).setWidth 16
  | .w16 => assemble s.par.byteOrder (s.byteAt a) (s.byteAt (a + 1))

/-- `MemWrite(a, w, v)` (R73): an 8-bit unit stores bits 7:0 of v (R103). -/
def State.writeUnit (s : State) (w : FrameWidth) (a : Addr) (v : Half) : State :=
  match w with
  | .w8 => s.putByte a (v.extractLsb' 0 8)
  | .w16 => (s.putByte a (firstByte s.par.byteOrder v)).putByte (a + 1) (secondByte s.par.byteOrder v)

end Sys2Proof.Machine
end

