-- ==== Sys2Proof/Machine/Ops.lean ====
section
/-! DEFINITION. The named operations over descriptors and registers (R130 to R135), responding, recording a model
fault, interrupt entry and return (R230, R232), and the peripheral's steps (R203 to R206). -/

namespace Sys2Proof.Machine

open Sys2Proof

/-- The descriptor of a direction (R31). -/
def State.desc (s : State) : Dir → Desc
  | .tx => s.tx
  | .rx => s.rx

/-- `d.f <- v`, by whole descriptor (R10). -/
def State.setDesc (s : State) (d : Dir) (x : Desc) : State :=
  match d with
  | .tx => { s with tx := x }
  | .rx => { s with rx := x }

/-- The ghost span of a direction (R46). -/
def State.span (s : State) : Dir → Option Span
  | .tx => s.txSpan
  | .rx => s.rxSpan

/-- The ghost span of a direction recorded or forgotten (R46). -/
def State.setSpan (s : State) (d : Dir) (x : Option Span) : State :=
  match d with
  | .tx => { s with txSpan := x }
  | .rx => { s with rxSpan := x }

/-- The registers `RegRead` reaches (R130). -/
inductive Reg where
  | cr1
  | cr2
  | sr
  deriving DecidableEq, Repr

/-- The registers `RegWrite` reaches: SR is never written by the block (R131). -/
inductive WReg where
  | cr1
  | cr2
  deriving DecidableEq, Repr

/-- The register a `RegWrite` names, as `RegRead` names it. -/
def WReg.reg : WReg → Reg
  | .cr1 => .cr1
  | .cr2 => .cr2

/-- The byte address of a register of the window (R70, R71); no rule depends on it (log 18). -/
def Reg.addr : Reg → Addr
  | .cr1 => Config.base + Config.offCr1
  | .cr2 => Config.base + Config.offCr2
  | .sr => Config.base + Config.offSr

/-- The byte address of DR (R70, R71). -/
def drAddr : Addr := Config.base + Config.offDr

/-- `RegRead(r)` (R130): the live value, no side effect. -/
def State.regRead (s : State) : Reg → Half
  | .cr1 => s.cr1
  | .cr2 => s.cr2
  | .sr => s.sr

/-- `RegWrite(r, v)` (R131): all 16 bits, no side effect. -/
def State.regWrite (s : State) (r : WReg) (v : Half) : State :=
  match r with
  | .cr1 => { s with cr1 := v }
  | .cr2 => { s with cr2 := v }

/-- Line 2 of `RMW_SET(r, k)` on the value c that line 1 read (R132). -/
def State.rmwSetWrite (s : State) (r : WReg) (k : Nat) (c : Half) : State := s.regWrite r (setBit c k)

/-- Line 2 of `RMW_CLR(r, k)` on the value c that line 1 read (R133). -/
def State.rmwClrWrite (s : State) (r : WReg) (k : Nat) (c : Half) : State := s.regWrite r (clrBit c k)

/-- `RMW_SET(r, k)` with nothing between its two lines (R132). -/
def State.rmwSet (s : State) (r : WReg) (k : Nat) : State := s.rmwSetWrite r k (s.regRead r.reg)

/-- `RMW_CLR(r, k)` with nothing between its two lines (R133). -/
def State.rmwClr (s : State) (r : WReg) (k : Nat) : State := s.rmwClrWrite r k (s.regRead r.reg)

/-- The w-bit value `DR_RD(w)` returns: DR_RX at frame width (R134). -/
def State.drValue (s : State) (w : FrameWidth) : Half :=
  match w with
  | .w8 => (s.drRx.extractLsb' 0 8).setWidth 16
  | .w16 => s.drRx

/-- The side effect of `DR_RD`: RXNE cleared in the same micro-step (R76, R134). -/
def State.drReadEffect (s : State) : State := { s with sr := clrBit s.sr Config.bitRxne }

/-- `DR_RD(w)` (R134): the value and the state after it. -/
def State.drRd (s : State) (w : FrameWidth) : Half × State := (s.drValue w, s.drReadEffect)

/-- The log entry of a frame (R43). -/
def logEntry (w : FrameWidth) (v : Half) : LogEntry :=
  match w with
  | .w8 => .b8 (v.extractLsb' 0 8)
  | .w16 => .b16 v

/-- The w-bit value zero-extended to 16 bits (R135). -/
def frameZext (w : FrameWidth) (v : Half) : Half :=
  match w with
  | .w8 => (v.extractLsb' 0 8).setWidth 16
  | .w16 => v

/-- `DR_WR(w, v)` (R135): DR_TX written, the frame logged, TXE cleared, in one micro-step. For w = 8 bits 15:8 of DR_TX
are written as zeros (log 12). -/
def State.drWr (s : State) (w : FrameWidth) (v : Half) : State :=
  { s with drTx := frameZext w v, txlog := s.txlog ++ [logEntry w v], sr := clrBit s.sr Config.bitTxe }

/-- `respond(v)`: v on the response port, the command ended (R10, R105). -/
def State.respond (s : State) (v : RespCode) : State := { s with resp := some v, hph := .idle }

/-- Response codes (R105). -/
abbrev respAccepted : RespCode := 0
abbrev respBusy : RespCode := 1
abbrev respInvalidLength : RespCode := 2
abbrev respReset : RespCode := 0
abbrev respSet : RespCode := 1
abbrev respDone : RespCode := 0

/-- The response code of a bus state: FREE 0, BUSY 1 (R105, R142). -/
def respBusState : BusState → RespCode
  | .free => 0
  | .busy => 1

/-- `raise` in HOST: recorded, sticky; hph stays at the line (R10, R222). -/
def State.raiseHost (s : State) (f : Fault) : State :=
  match s.hfault with
  | none => { s with hfault := some f }
  | some _ => s

/-- `raise` in DISP: recorded, sticky; dph stays at the line (R10, R222, R231). -/
def State.raiseDisp (s : State) (f : Fault) : State :=
  match s.dfault with
  | none => { s with dfault := some f }
  | some _ => s

/-- Interrupt entry: "Entry saves nothing and changes nothing in the block: HOST simply stops where it is" (R230 (b)). -/
def State.enterDispatch (s : State) : State := { s with dph := .i0 }

/-- Return from the dispatch: "Nothing is restored or re-enabled by the return" (R232). -/
def State.returnDispatch (s : State) : State := { s with dph := .idle }

/-- DISP may start a dispatch: dph is IDLE and ATOMIC_HOST is false or hph is IDLE; irq is not asked (R186, R230 (b)).
An agent that has raised a fault takes no further step (R222). -/
def State.dispMayStart (s : State) : Bool :=
  decide (s.dph = .idle) && s.dfault.isNone && (!s.par.atomicHost || decide (s.hph = .idle))

/-- HOST may start a command: hph and dph are IDLE (R101, R230 (c), (d)), and HOST has raised no fault (R222). -/
def State.hostMayBegin (s : State) : Bool :=
  decide (s.hph = .idle) && decide (s.dph = .idle) && s.hfault.isNone

/-- The reference layout of InitCR1 (R201): cpha 0, cpol 1, mode 2, baud 5:3, lsbfirst 7, ssm 9, dff 11, others 0. -/
def initCr1Reference (c : Cfg) : Half :=
  0#4 ++ c.dff ++ 0#1 ++ c.ssm ++ 0#1 ++ c.lsbfirst ++ 0#1 ++ c.baud ++ c.mode ++ c.cpol ++ c.cpha

/-- InitCR1, a parameter: any function with InitCR1(cfg)[BIT_DFF] = cfg.dff (R201; log 7). -/
def initCr1 (k : InitCr1Kind) (c : Cfg) : Half :=
  match k with
  | .free => putBit (Config.freeInitCr1 c) Config.bitDff (c.dff == 1)
  | .reference => initCr1Reference c

/-- A frame delivered: DR_RX <- v, RXNE <- 1 (R203, R205). -/
def State.deliver (s : State) (v : Half) : State :=
  { s with drRx := v, sr := setBit s.sr Config.bitRxne }

/-- One step of the peripheral under FreeEnv (R203). A flag is no opaque bit, so it is not changed as one. -/
def periphFree (a : PeriphAct) (s : State) : State :=
  match a with
  | .txe b => { s with sr := putBit s.sr Config.bitTxe b }
  | .bsy b => { s with sr := putBit s.sr Config.bitBsy b }
  | .clearRxne => { s with sr := clrBit s.sr Config.bitRxne }
  | .rx v => s.deliver v
  | .opaqueBit k b => if opaqueSrBit k.val then { s with sr := putBit s.sr k.val b } else s

/-- One step of the peripheral under RefEnv: three steps, each with its enabling condition (R204, R205, R206). -/
def periphRef (a : PeriphAct) (s : State) : State :=
  match a with
  | .txe true =>
    if s.txe then s else { s with sr := setBit (setBit s.sr Config.bitTxe) Config.bitBsy }
  | .bsy false => if s.txe then { s with sr := clrBit s.sr Config.bitBsy } else s
  | .rx v => if s.rxne then s else s.deliver v
  | .txe false => s
  | .bsy true => s
  | .clearRxne => s
  | .opaqueBit _ _ => s

/-- One step of the peripheral in the environment the parameters name (R8, R202). -/
def periphStep (a : PeriphAct) (s : State) : State :=
  match s.par.env with
  | .free => periphFree a s
  | .ref => periphRef a s

end Sys2Proof.Machine
end

