-- ==== Sys2Proof/Machine/Operands.lean ====
section
/-! DEFINITION. Operands: unit widths, spans, and what a buffer access checks before it is made (R46, R74, R222). -/

namespace Sys2Proof.Machine

open Sys2Proof

/-- The unit width in bytes (R12, R160). -/
def unitBytes : FrameWidth → BitVec 32
  | .w8 => 1
  | .w16 => 2

/-- The step reference bound for a frame width (R150 line S5). -/
def Sel.ofWidth : FrameWidth → Sel
  | .w8 => .w8
  | .w16 => .w16

/-- The code of a step reference (R31). -/
def Sel.code : Sel → BitVec 2
  | .none => 0b00
  | .w8 => 0b01
  | .w16 => 0b10
  | .reserved => 0b11

/-- The selector bit of a frame width, the field sel of format U (R106). -/
def widthCode : FrameWidth → BitVec 2
  | .w8 => 0b01
  | .w16 => 0b10

/-- The step selector of a direction: dir and the live d.sel (R106, R180). -/
def State.stepWord (s : State) (d : Dir) : StepWord := d.bit ++ (s.desc d).sel.code

/-- Is an address inside a lent span, the offset from buf taken modulo 2^32 (R46, R82; log 13). -/
def Span.holds (sp : Span) (a : Addr) : Bool := decide ((a - sp.buf).toNat < sp.len.toNat)

/-- Is a byte address outside the span of a direction (R46); with no span every address is. -/
def outside (sp : Option Span) (a : Addr) : Bool :=
  match sp with
  | none => true
  | some x => !x.holds a

/-- The lowest byte address of an access that lies outside the span, if any (R222; log 13). -/
def outOfBounds (sp : Option Span) (w : FrameWidth) (a : Addr) : Option Addr :=
  match w with
  | .w8 => if outside sp a then some a else none
  | .w16 =>
    if outside sp a then
      (if outside sp (a + 1) && decide ((a + 1).toNat < a.toNat) then some (a + 1) else some a)
    else if outside sp (a + 1) then some (a + 1)
    else none

/-- A two-byte access at an odd address (R74). -/
def misaligned (w : FrameWidth) (a : Addr) : Bool :=
  match w with
  | .w8 => false
  | .w16 => a.getLsbD 0

/-- Is the access split in two micro-steps (R74, R75). -/
def State.splits (s : State) (w : FrameWidth) (a : Addr) : Bool :=
  misaligned w a && decide (s.par.align = .split)

/-- Does the access fault for its alignment (R74). -/
def State.alignFaults (s : State) (w : FrameWidth) (a : Addr) : Bool :=
  misaligned w a && decide (s.par.align = .fault)

/-- The model fault of a step's buffer access, the lowest code first (R222); the whole access is checked at its first
micro-step (log 13). -/
def State.stepAccessFault (s : State) (d : Dir) (w : FrameWidth) (a : Addr) : Option Fault :=
  if s.alignFaults w a then some (.misaligned16 (.step d) a)
  else if s.par.boundsCheck then (outOfBounds (s.span d) w a).map (Fault.bufferBounds d)
  else none

/-- The name a blocking command has in `Misaligned16` (R195). -/
def blkAccessor : Dir → Accessor
  | .tx => .blkTx
  | .rx => .blkRx

/-- The model fault of a blocking command's buffer access: alignment only, there is no span (R190, R195, R222). -/
def State.blkAccessFault (s : State) (d : Dir) (w : FrameWidth) (a : Addr) : Option Fault :=
  if s.alignFaults w a then some (.misaligned16 (blkAccessor d) a) else none

end Sys2Proof.Machine
end

