-- ==== Sys2Proof/Machine/DispLines.lean ====
section
/-! DEFINITION. The pseudocode lines of the interrupt context, each one atomic micro-step (R10, R41): the dispatcher
(R180), the four steps (R161 to R164) and the two closes (R165, R166). -/

namespace Sys2Proof.Machine

open Sys2Proof

/-- The line of `IRQ_DISPATCH` after the step of a direction: I3 after transmit; after receive the dispatch returns
(R180). -/
def afterStep : Dir → DispPhase
  | .tx => .i3
  | .rx => .idle

/-- The first line of a step. -/
def stepEntry (d : Dir) (w : FrameWidth) : DispPhase :=
  match d with
  | .tx => .stepTx w .t0
  | .rx => .stepRx w .t0

/-- The step the selector names, or the model fault of a passed gate with no bound step (R106, R185, R188). -/
def selectStep (d : Dir) (sel : Sel) : Except Fault DispPhase :=
  match sel with
  | .none => .error (.nullStep d)
  | .w8 => .ok (stepEntry d .w8)
  | .w16 => .ok (stepEntry d .w16)
  | .reserved => .error (.reservedSel d)

/-- I2 and I5: the test of a direction's gate on the values e and s just read; d.sel is read live (R85, R180, R181). -/
def gateMicro (d : Dir) (e v : Half) (s : State) : State :=
  if gateOpen d e v then
    match selectStep d (s.desc d).sel with
    | .ok p => { s with dph := p }
    | .error f => s.raiseDisp f
  else { s with dph := afterStep d }

/-- Line T2 of every step: the cursor advanced by the unit width, modulo 2^32 (R160, R82). -/
def State.advance (s : State) (d : Dir) (w : FrameWidth) : State :=
  s.setDesc d { s.desc d with cur := (s.desc d).cur + unitBytes w }

/-- Line T3 of every step: the count decremented by the unit width, modulo 2^32 (R160). -/
def State.countDown (s : State) (d : Dir) (w : FrameWidth) : State :=
  s.setDesc d { s.desc d with len := (s.desc d).len - unitBytes w }

/-- Line T4 of every step: at exactly zero the close, else the step returns (R107, R160). -/
def tailMicro (d : Dir) (s : State) : State :=
  if (s.desc d).len = 0 then { s with dph := .close d .k0 } else { s with dph := afterStep d }

/-- `STEP_TX8`, `STEP_TX16` (R161, R162). -/
def stepTxMicro (w : FrameWidth) (ln : TxLine) (s : State) : State :=
  match ln with
  | .t0 =>
    match s.stepAccessFault .tx w s.tx.cur with
    | some f => s.raiseDisp f
    | none =>
      if s.splits w s.tx.cur then { s with dph := .stepTx w (.t0b (s.byteAt s.tx.cur)) }
      else { s with dph := .stepTx w (.t1 (s.readUnit w s.tx.cur)) }
  | .t0b first =>
    { s with dph := .stepTx w (.t1 (assemble s.par.byteOrder first (s.byteAt (s.tx.cur + 1)))) }
  | .t1 x => { s.drWr w x with dph := .stepTx w .t2 }
  | .t2 => { s.advance .tx w with dph := .stepTx w .t3 }
  | .t3 => { s.countDown .tx w with dph := .stepTx w .t4 }
  | .t4 => tailMicro .tx s

/-- `STEP_RX8`, `STEP_RX16` (R163, R164). -/
def stepRxMicro (w : FrameWidth) (ln : RxLine) (s : State) : State :=
  match ln with
  | .t0 => { (s.drRd w).2 with dph := .stepRx w (.t1 (s.drRd w).1) }
  | .t1 v =>
    match s.stepAccessFault .rx w s.rx.cur with
    | some f => s.raiseDisp f
    | none =>
      if s.splits w s.rx.cur then
        { s.putByte s.rx.cur (firstByte s.par.byteOrder v) with dph := .stepRx w (.t1b v) }
      else { s.writeUnit w s.rx.cur v with dph := .stepRx w .t2 }
  | .t1b v =>
    { s.putByte (s.rx.cur + 1) (secondByte s.par.byteOrder v) with dph := .stepRx w .t2 }
  | .t2 => { s.advance .rx w with dph := .stepRx w .t3 }
  | .t3 => { s.countDown .rx w with dph := .stepRx w .t4 }
  | .t4 => tailMicro .rx s

/-- `CLOSE_TX`, `CLOSE_RX` (R165, R166): disarm, clear cursor, count and selector, state last; the span is forgotten. -/
def closeMicro (d : Dir) (ln : CloseLine) (s : State) : State :=
  match ln with
  | .k0 => { s with dph := .close d (.k1 (s.regRead .cr2)) }
  | .k1 c2 => { s.rmwClrWrite .cr2 (enableBit d) c2 with dph := .close d .k2 }
  | .k2 => { s.setDesc d { s.desc d with cur := nullAddr } with dph := .close d .k3 }
  | .k3 => { s.setDesc d { s.desc d with len := 0 } with dph := .close d .k4 }
  | .k4 => { s.setDesc d { s.desc d with sel := .none } with dph := .close d .k5 }
  | .k5 =>
    { (s.setDesc d { s.desc d with state := .free }).setSpan d none with dph := afterStep d }

/-- The next micro-step of the dispatch in progress (R180, R230 (c)); none when dph is IDLE. -/
def dispMicro (s : State) : State :=
  match s.dph with
  | .idle => s
  | .i0 => { s with dph := .i1 (s.regRead .cr2) }
  | .i1 e => { s with dph := .i2 e (s.regRead .sr) }
  | .i2 e v => gateMicro .tx e v s
  | .i3 => { s with dph := .i4 (s.regRead .cr2) }
  | .i4 e => { s with dph := .i5 e (s.regRead .sr) }
  | .i5 e v => gateMicro .rx e v s
  | .stepTx w ln => stepTxMicro w ln s
  | .stepRx w ln => stepRxMicro w ln s
  | .close d ln => closeMicro d ln s

end Sys2Proof.Machine
end

