-- ==== Sys2Proof/Machine/HostLines.lean ====
section
/-! DEFINITION. The pseudocode lines of the host commands, each one atomic micro-step (R10, R41). A line advances hph to
the next line, or to IDLE at `respond`. -/

namespace Sys2Proof.Machine

open Sys2Proof

/-- `INIT` (R200): N0 stores the record, or refuses while a direction is BUSY (R222); N1 writes CR1 and responds. -/
def initMicro (c : Cfg) (ln : InitLine) (s : State) : Outcome :=
  match ln with
  | .n0 =>
    if s.tx.state = .busy ∨ s.rx.state = .busy then .refused .initWhileBusy
    else .next { s with cfg := c, hph := .init c .n1 }
  | .n1 => .next ((s.regWrite .cr1 (initCr1 s.par.initCr1 c)).respond respDone)

/-- hph at a line of a submit. -/
def State.atSubmit (s : State) (d : Dir) (buf : Addr) (len : Len) (ln : SubmitLine) : State :=
  { s with hph := .submit d buf len ln }

/-- `SUBMIT_TX`, `SUBMIT_RX` (R150, R151), with S0b when STRICT_LENGTH (R155). The ghost span is recorded at S2. -/
def submitMicro (d : Dir) (buf : Addr) (len : Len) (ln : SubmitLine) (s : State) : State :=
  match ln with
  | .s0 =>
    match (s.desc d).state with
    | .busy => s.respond respBusy
    | .free => if s.par.strictLength then s.atSubmit d buf len .s0b else s.atSubmit d buf len .s1
  | .s0b =>
    if (s.regRead .cr1).getLsbD Config.bitDff && len.getLsbD 0 then s.respond respInvalidLength
    else s.atSubmit d buf len .s1
  | .s1 => (s.setDesc d { s.desc d with cur := buf }).atSubmit d buf len .s2
  | .s2 =>
    ((s.setDesc d { s.desc d with len := len }).setSpan d (some ⟨buf, len⟩)).atSubmit d buf len .s3
  | .s3 => (s.setDesc d { s.desc d with state := .busy }).atSubmit d buf len .s4
  | .s4 => s.atSubmit d buf len (.s5 (s.regRead .cr1))
  | .s5 c1 => (s.setDesc d { s.desc d with sel := Sel.ofWidth (dffWidth c1) }).atSubmit d buf len .s6
  | .s6 => s.atSubmit d buf len (.s7 (s.regRead .cr2))
  | .s7 c2 => (s.rmwSetWrite .cr2 (enableBit d) c2).respond respAccepted

/-- `FLAG_STATUS` (R140): F0 reads SR, F1 answers from the value read. -/
def flagMicro (m : Half) (ln : FlagLine) (s : State) : State :=
  match ln with
  | .f0 => { s with hph := .flag m (.f1 (s.regRead .sr)) }
  | .f1 v => s.respond (if v &&& m ≠ 0 then respSet else respReset)

/-- `GET_STATE` (R142): G0 reads d.state, G1 answers it. -/
def getMicro (d : Dir) (ln : GetLine) (s : State) : State :=
  match ln with
  | .g0 => { s with hph := .getState d (.g1 (s.desc d).state) }
  | .g1 t => s.respond (respBusState t)

/-- hph at a line of a blocking command. -/
def State.atBlk (s : State) (d : Dir) (buf : Addr) (len : Len) (ln : BlkLine) : State :=
  { s with hph := .blk d buf len ln }

/-- `BLK_TX` (R190). B2 and B7 are the spin loops; a misaligned two-byte read faults or takes two micro-steps (R74,
R75, R195). B5b is a line of `BLK_RX` only. -/
def blkTxMicro (buf : Addr) (len : Len) (ln : BlkLine) (s : State) : State :=
  match ln with
  | .b0 => s.atBlk .tx buf len (.b1 buf len)
  | .b1 p n => if n = 0 then s.atBlk .tx buf len .b7 else s.atBlk .tx buf len (.b2 p n)
  | .b2 p n =>
    if (s.regRead .sr).getLsbD Config.bitTxe then s.atBlk .tx buf len (.b3 p n)
    else s.atBlk .tx buf len (.b2 p n)
  | .b3 p n => s.atBlk .tx buf len (.b4 p n (dffWidth (s.regRead .cr1)))
  | .b4 p n w =>
    match s.blkAccessFault .tx w p with
    | some f => s.raiseHost f
    | none =>
      if s.splits w p then s.atBlk .tx buf len (.b4b p n w (s.byteAt p))
      else s.atBlk .tx buf len (.b5 p n w (s.readUnit w p))
  | .b4b p n w first =>
    s.atBlk .tx buf len (.b5 p n w (assemble s.par.byteOrder first (s.byteAt (p + 1))))
  | .b5 p n w x => (s.drWr w x).atBlk .tx buf len (.b6 p n w)
  | .b5b _ _ _ _ => s
  | .b6 p n w => s.atBlk .tx buf len (.b1 (p + unitBytes w) (n - unitBytes w))
  | .b7 =>
    if (s.regRead .sr).getLsbD Config.bitBsy then s.atBlk .tx buf len .b7 else s.atBlk .tx buf len .b8
  | .b8 => s.respond respDone

/-- `BLK_RX` (R191). B2 is the spin loop, there is no wait on BSY and B7 responds; a misaligned two-byte write faults
or takes two micro-steps. B4b and B8 are lines of `BLK_TX` only. -/
def blkRxMicro (buf : Addr) (len : Len) (ln : BlkLine) (s : State) : State :=
  match ln with
  | .b0 => s.atBlk .rx buf len (.b1 buf len)
  | .b1 p n => if n = 0 then s.atBlk .rx buf len .b7 else s.atBlk .rx buf len (.b2 p n)
  | .b2 p n =>
    if (s.regRead .sr).getLsbD Config.bitRxne then s.atBlk .rx buf len (.b3 p n)
    else s.atBlk .rx buf len (.b2 p n)
  | .b3 p n => s.atBlk .rx buf len (.b4 p n (dffWidth (s.regRead .cr1)))
  | .b4 p n w => (s.drRd w).2.atBlk .rx buf len (.b5 p n w (s.drRd w).1)
  | .b4b _ _ _ _ => s
  | .b5 p n w v =>
    match s.blkAccessFault .rx w p with
    | some f => s.raiseHost f
    | none =>
      if s.splits w p then
        (s.putByte p (firstByte s.par.byteOrder v)).atBlk .rx buf len (.b5b p n w v)
      else (s.writeUnit w p v).atBlk .rx buf len (.b6 p n w)
  | .b5b p n w v =>
    (s.putByte (p + 1) (secondByte s.par.byteOrder v)).atBlk .rx buf len (.b6 p n w)
  | .b6 p n w => s.atBlk .rx buf len (.b1 (p + unitBytes w) (n - unitBytes w))
  | .b7 => s.respond respDone
  | .b8 => s

/-- The blocking command of a direction. -/
def blkMicro (d : Dir) (buf : Addr) (len : Len) (ln : BlkLine) (s : State) : State :=
  match d with
  | .tx => blkTxMicro buf len ln s
  | .rx => blkRxMicro buf len ln s

/-- The next micro-step of the host command in progress (R41, R230 (d)); none when hph is IDLE. -/
def hostMicro (s : State) : Outcome :=
  match s.hph with
  | .idle => .next s
  | .init c ln => initMicro c ln s
  | .submit d buf len ln => .next (submitMicro d buf len ln s)
  | .flag m ln => .next (flagMicro m ln s)
  | .getState d ln => .next (getMicro d ln s)
  | .blk d buf len ln => .next (blkMicro d buf len ln s)

end Sys2Proof.Machine
end

