-- ==== Sys2Proof/Machine/Runs.lean ====
section
/-! DEFINITION. Whole operations: the lines of one agent run with no other agent stepping inside (R111, "A line without
.phase means the whole operation run with no other agent stepping inside it"). -/

namespace Sys2Proof.Machine

open Sys2Proof

/-- At most k micro-steps of HOST, until its command ends or a fault stops it (R222). A spin loop re-reads its flag and
leaves the state as it is: with no other agent stepping it holds (R10, R192). -/
def runHost : Nat → State → Outcome
  | 0, s => .next s
  | k + 1, s =>
    if s.hph = .idle ∨ s.hfault.isSome then .next s
    else
      match hostMicro s with
      | .next t => runHost k t
      | .fault f => .fault f
      | .refused r => .refused r

/-- More lines than a host command can take alone: one iteration of a blocking loop clears the flag the next one waits
on (R134, R135), so alone it takes at most one. -/
def hostFuel : Nat := 16

/-- A host command begun and run alone (R230 (d)); where HOST may not begin one, it has no step (log 2). -/
def beginHost (ph : HostPhase) (s : State) : Outcome :=
  if s.hostMayBegin then runHost hostFuel { s with hph := ph } else .next s

/-- DISP stands at a line of a step or a close. -/
def inStep : DispPhase → Bool
  | .stepTx _ _ => true
  | .stepRx _ _ => true
  | .close _ _ => true
  | .idle => false
  | .i0 => false
  | .i1 _ => false
  | .i2 _ _ => false
  | .i3 => false
  | .i4 _ => false
  | .i5 _ _ => false

/-- At most k micro-steps of DISP, until the step or close it stands in has returned or a fault stops it. -/
def runStep : Nat → State → State
  | 0, s => s
  | k + 1, s => if inStep s.dph && s.dfault.isNone then runStep k (dispMicro s) else s

/-- The lines of a step, split access and close included. -/
def stepFuel : Nat := 12

/-- The step or close at whose first line DISP stands, run alone: a step runs "only when IRQ_DISPATCH invokes it"
(R160), a close only as its tail (R165). Elsewhere DISP has no such step (log 2). -/
def beginStep (entry : DispPhase) (s : State) : Outcome :=
  if s.dph = entry ∧ s.dfault = none then .next (runStep stepFuel s) else .next s

/-- At most k micro-steps of DISP, until the dispatch has returned or a fault stops it (R231). -/
def runDisp : Nat → State → State
  | 0, s => s
  | k + 1, s => if s.dph = .idle ∨ s.dfault.isSome then s else runDisp k (dispMicro s)

/-- The lines of a dispatch that serves both directions and closes both. -/
def dispFuel : Nat := 30

/-- A dispatch started and run to completion (R231). -/
def beginDispatch (s : State) : Outcome :=
  if s.dispMayStart then .next (runDisp dispFuel s.enterDispatch) else .next s

end Sys2Proof.Machine
end

