-- ==== Sys2Proof/Machine/Commands.lean ====
section
/-! DEFINITION. The meanings of the seven host commands: each command's lines run from its first (R140, R142, R150,
R151, R190, R191, R200). -/

namespace Sys2Proof.Machine

open Sys2Proof

/-- `INIT` (R200). -/
def execInit (c : Cfg) (s : State) : Outcome := beginHost (.init c .n0) s

/-- `SUBMIT_TX` (R150). -/
def execSubmitTx (buf : Addr) (len : Len) (s : State) : Outcome := beginHost (.submit .tx buf len .s0) s

/-- `SUBMIT_RX` (R151). -/
def execSubmitRx (buf : Addr) (len : Len) (s : State) : Outcome := beginHost (.submit .rx buf len .s0) s

/-- `FLAG_STATUS` (R140); an invalid identifier is refused and the command takes no step (R141). -/
def execFlagStatus (m : Half) (s : State) : Outcome :=
  if validFlagMask m then beginHost (.flag m .f0) s else .refused (.invalidFlagId m)

/-- `GET_STATE` (R142). -/
def execGetState (d : Dir) (s : State) : Outcome := beginHost (.getState d .g0) s

/-- `BLK_TX` (R190). -/
def execBlkTx (buf : Addr) (len : Len) (s : State) : Outcome := beginHost (.blk .tx buf len .b0) s

/-- `BLK_RX` (R191). -/
def execBlkRx (buf : Addr) (len : Len) (s : State) : Outcome := beginHost (.blk .rx buf len .b0) s

end Sys2Proof.Machine
end

