-- ==== Sys2Proof/Machine/Dispatcher.lean ====
section
/-! DEFINITION. The meaning of `IRQ_DISPATCH` (R180). -/

namespace Sys2Proof.Machine

open Sys2Proof

/-- `IRQ_DISPATCH` (R180), whatever irq is (R186). -/
def execIrqDispatch (s : State) : Outcome := beginDispatch s

end Sys2Proof.Machine
end

