-- ==== Sys2Proof/Machine/StepFunctions.lean ====
section
/-! DEFINITION. The meanings of the four width-dispatch steps (R161 to R164), their close included where the count
reaches zero, and of the two closes (R165, R166). -/

namespace Sys2Proof.Machine

open Sys2Proof

/-- `STEP_TX8` (R161). -/
def execStepTx8 (s : State) : Outcome := beginStep (.stepTx .w8 .t0) s

/-- `STEP_TX16` (R162). -/
def execStepTx16 (s : State) : Outcome := beginStep (.stepTx .w16 .t0) s

/-- `STEP_RX8` (R163). -/
def execStepRx8 (s : State) : Outcome := beginStep (.stepRx .w8 .t0) s

/-- `STEP_RX16` (R164). -/
def execStepRx16 (s : State) : Outcome := beginStep (.stepRx .w16 .t0) s

/-- `CLOSE_TX` (R165). -/
def execCloseTx (s : State) : Outcome := beginStep (.close .tx .k0) s

/-- `CLOSE_RX` (R166). -/
def execCloseRx (s : State) : Outcome := beginStep (.close .rx .k0) s

end Sys2Proof.Machine
end

