-- ==== Sys2Proof/Machine/Dispatch.lean ====
section
/-! DEFINITION. One arm per constructor of Instr. -/

namespace Sys2Proof.Machine

open Sys2Proof

def exec (i : Instr) (s : State) : Host.Outcome State Fault Refusal :=
  match i with
  | .init c => Sys2Proof.Machine.execInit c s
  | .submitTx buf len => Sys2Proof.Machine.execSubmitTx buf len s
  | .submitRx buf len => Sys2Proof.Machine.execSubmitRx buf len s
  | .flagStatus m => Sys2Proof.Machine.execFlagStatus m s
  | .getState d => Sys2Proof.Machine.execGetState d s
  | .blkTx buf len => Sys2Proof.Machine.execBlkTx buf len s
  | .blkRx buf len => Sys2Proof.Machine.execBlkRx buf len s
  | .stepTx8 => Sys2Proof.Machine.execStepTx8 s
  | .stepTx16 => Sys2Proof.Machine.execStepTx16 s
  | .stepRx8 => Sys2Proof.Machine.execStepRx8 s
  | .stepRx16 => Sys2Proof.Machine.execStepRx16 s
  | .closeTx => Sys2Proof.Machine.execCloseTx s
  | .closeRx => Sys2Proof.Machine.execCloseRx s
  | .irqDispatch => Sys2Proof.Machine.execIrqDispatch s

end Sys2Proof.Machine
end

