-- ==== Sys2Proof/Machine/Schedule.lean ====
section
/-! DEFINITION. What a turn does (R230, log 1), which operation word a turn fetches, and how a word is placed for the
next step. -/

namespace Sys2Proof.Machine

open Sys2Proof

/-- The turn the next step takes: the first one decided, or a free one (log 1). -/
def State.turn (s : State) : Turn :=
  match s.sched with
  | t :: _ => t
  | [] => Config.freeTurn s.tick

/-- The state with that turn consumed. -/
def State.consume (s : State) : State :=
  match s.sched with
  | _ :: ts => { s with sched := ts }
  | [] => { s with tick := s.tick + 1 }

/-- The operation word at which DISP stands: the event where it may start a dispatch, the selector {dir, sel} at the
first line of a step, {dir, z} at the first line of a close (R106, R107, R108). -/
def State.dispWord (s : State) : Option OpWord :=
  match s.dph with
  | .idle => if s.dispMayStart then some (.e 1) else none
  | .stepTx w .t0 => some (.u (Dir.tx.bit ++ widthCode w))
  | .stepRx w .t0 => some (.u (Dir.rx.bit ++ widthCode w))
  | .close d .k0 => some (.t (d.bit ++ (1 : BitVec 1)))
  | _ => none

/-- The operation word a turn runs whole, if it does: a command word HOST may begin, or the word at which DISP stands.
A stopped agent fetches nothing (R222). -/
def fetchTurn (t : Turn) (s : State) : Option OpWord :=
  match t with
  | .hostOp w => if s.hostMayBegin then some (.c w) else none
  | .dispOp => if s.dfault.isNone then s.dispWord else none
  | .hostStart _ => none
  | .hostMicro => none
  | .scriptOp => none
  | .scriptMicro => none
  | .dispStart => none
  | .dispMicro => none
  | .periph _ => none

/-- The operation word the next step runs whole, if it does. -/
def State.fetch (s : State) : Option OpWord := fetchTurn s.turn s

/-- The refusal of a word the decoder rejects (R109, R222): a command word with no row, an invalid flag identifier.
The selectors and the event are formed by the machine itself and are never rejected; `none` for those. -/
def refusalOf : Reject → Option Refusal
  | .reservedCommand w => some (.reservedCommand w)
  | .invalidFlagId m => some (.invalidFlagId m)
  | .nullStep _ => none
  | .reservedSel _ => none
  | .noTail _ => none
  | .noRequest => none

/-- A rejected word: refused by name; DISP has no step for a selector that names none. -/
def rejected (r : Reject) (s : State) : Outcome :=
  match refusalOf r with
  | some x => .refused x
  | none => .next s

/-- An operation word decoded and executed. -/
def runWord (w : OpWord) (s : State) : Outcome :=
  match decode w with
  | .ok i => exec i s
  | .error r => rejected r s

/-- The first line of a host command (R41). -/
def hostEntry : Instr → HostPhase
  | .init c => .init c .n0
  | .submitTx buf len => .submit .tx buf len .s0
  | .submitRx buf len => .submit .rx buf len .s0
  | .flagStatus m => .flag m .f0
  | .getState d => .getState d .g0
  | .blkTx buf len => .blk .tx buf len .b0
  | .blkRx buf len => .blk .rx buf len .b0
  | .stepTx8 => .idle
  | .stepTx16 => .idle
  | .stepRx8 => .idle
  | .stepRx16 => .idle
  | .closeTx => .idle
  | .closeRx => .idle
  | .irqDispatch => .idle

/-- HOST starts a command: hph leaves IDLE for its first line (R230 (d), log 14). -/
def startCommand (w : CmdWord) (s : State) : Outcome :=
  match decode (.c w) with
  | .ok i => .next { s with hph := hostEntry i }
  | .error r => rejected r s

/-- The word of `GET_STATE d` (R102). -/
def getStateWord (d : Dir) : CmdWord := cmdWord 5 0 (0#31 ++ d.bit)

/-- The next command of HOST's script run whole (R111): a command leaves the script; `WAIT_FREE d` runs `GET_STATE d`
and leaves it when the answer is FREE, else it stays and polls again at a later turn. An empty script gives nothing. -/
def runScript (s : State) : Outcome :=
  match s.script with
  | [] => .next s
  | .command w :: rest => runWord (.c w) { s with script := rest }
  | .waitFree d :: rest =>
    match runWord (.c (getStateWord d)) s with
    | .next t => .next (if t.resp = some (respBusState .free) then { t with script := rest } else t)
    | .fault f => .fault f
    | .refused r => .refused r

/-- The next command of HOST's script started (R230 (d)): a command leaves the script; `WAIT_FREE d` stays until its
`GET_STATE d` has answered. -/
def startScript (s : State) : Outcome :=
  match s.script with
  | [] => .next s
  | .command w :: rest => startCommand w { s with script := rest }
  | .waitFree d :: _ => startCommand (getStateWord d) s

/-- HOST is at line G1 of a `GET_STATE d` that answers FREE, and its script waits for just that: the wait is over. -/
def State.endWait (s : State) : State :=
  match s.hph, s.script with
  | .getState d (.g1 .free), .waitFree e :: rest => if d = e then { s with script := rest } else s
  | _, _ => s

/-- One move of HOST on with its script: the next command started, or the next line of the one in progress. -/
def scriptMicro (s : State) : Outcome :=
  if s.hph = .idle then startScript s else hostMicro s.endWait

/-- A turn of HOST. A stopped HOST takes no further step: its fault is the answer (R222, log 4). While dph is not IDLE
HOST takes none (R230 (c)): it holds (log 2). -/
def hostTurn (t : Turn) (s : State) : Outcome :=
  match s.hfault with
  | some f => .fault f
  | none =>
    match t with
    | .hostStart w => if s.hostMayBegin then startCommand w s else .next s
    | .hostMicro => if s.dph = .idle then hostMicro s else .next s
    | .scriptOp => if s.hostMayBegin then runScript s else .next s
    | .scriptMicro => if s.dph = .idle then scriptMicro s else .next s
    | _ => .next s

/-- A turn of DISP. A stopped DISP takes no further step: its fault is the answer (R222, R231, log 4). -/
def dispTurn (t : Turn) (s : State) : Outcome :=
  match s.dfault with
  | some f => .fault f
  | none =>
    match t with
    | .dispStart => if s.dispMayStart then .next s.enterDispatch else .next s
    | .dispMicro => .next (dispMicro s)
    | _ => .next s

/-- What a turn does when it runs no whole operation. -/
def otherTurn (t : Turn) (s : State) : Outcome :=
  match t with
  | .hostStart _ => hostTurn t s
  | .hostMicro => hostTurn t s
  | .hostOp _ => hostTurn t s
  | .scriptOp => hostTurn t s
  | .scriptMicro => hostTurn t s
  | .dispStart => dispTurn t s
  | .dispMicro => dispTurn t s
  | .dispOp => dispTurn t s
  | .periph a => .next (periphStep a s)

/-- What a turn does: a whole operation fetched, decoded and executed, or one step of an agent. -/
def runTurn (t : Turn) (s : State) : Outcome :=
  match fetchTurn t s with
  | some w => runWord w s
  | none => otherTurn t s

/-- One step: the turn is consumed and done. -/
def stepTurn (s : State) : Outcome := runTurn s.turn s.consume

/-- `TRANSFER buf_tx, buf_rx, len` as a script: "SUBMIT_RX buf_rx, len then SUBMIT_TX buf_tx, len then WAIT_FREE TX then
WAIT_FREE RX" (R111). -/
def transferScript (bufTx bufRx : Addr) (len : Len) : List ScriptItem :=
  [.command (cmdWord 3 bufRx len), .command (cmdWord 2 bufTx len), .waitFree .tx, .waitFree .rx]

/-- The dispatcher phase a step or tail selector stands at: its operation's first line. -/
def selectorPhase : OpWord → DispPhase
  | .c _ => .idle
  | .e _ => .idle
  | .u w => if w.extractLsb' 2 1 = 0 then .stepTx (if w.extractLsb' 0 2 = widthCode .w16 then .w16 else .w8) .t0
            else .stepRx (if w.extractLsb' 0 2 = widthCode .w16 then .w16 else .w8) .t0
  | .t w => .close (Dir.ofBit (w.extractLsb' 1 1)) .k0

/-- A word placed where the next step fetches its operation (log 16). A command word stands in the turn of HOST, with
HOST able to begin; a selector or the event stands in dph, with DISP able to run it and its turn next. -/
def State.placeWord (s : State) (ow : OpWord) : State :=
  match ow with
  | .c w => { s with hph := .idle, dph := .idle, hfault := none, sched := .hostOp w :: s.sched }
  | .u _ => { s with dph := selectorPhase ow, dfault := none, sched := .dispOp :: s.sched }
  | .t _ => { s with dph := selectorPhase ow, dfault := none, sched := .dispOp :: s.sched }
  | .e _ => { s with hph := if s.par.atomicHost then .idle else s.hph, dph := .idle, dfault := none,
                     sched := .dispOp :: s.sched }

/-- A row's word placed where the next step fetches its operation; the state itself where the bits are no word. -/
def State.placeTableWord (s : State) (nbits w : Nat) : State :=
  match tableWord nbits w with
  | some ow => s.placeWord ow
  | none => s

end Sys2Proof.Machine
end

