-- ==== Sys2Proof/Machine/Step.lean ====
section
/-! DEFINITION. The step of the machine. -/

namespace Sys2Proof.Machine

open Sys2Proof

/-- One step of the machine: one turn of the schedule (R30, R230, log 1). -/
def step (s : State) : Host.Outcome State Fault Refusal := stepTurn s

/-- The state with a row's word stored where `step` fetches its next operation (log 16). -/
def State.withFetchWord (s : State) (nbits w : Nat) : State := s.placeTableWord nbits w

end Sys2Proof.Machine
end

