-- ==== Sys2Proof/Safety.lean ====
section
/-! DEFINITION. What counts as a good state: final states (R271), the closed descriptor (R34), the arming invariant
(R251), and the invariants they need at micro-step grain. -/

namespace Sys2Proof.Machine

open Sys2Proof

/-- A final state: both phases IDLE, both descriptors FREE, both enable bits 0, no fault recorded (R271). A refusal
leaves no state (log 5). -/
def State.final (s : State) : Bool :=
  decide (s.hph = .idle) && decide (s.dph = .idle) && decide (s.tx.state = .free) && decide (s.rx.state = .free) &&
    !s.enabled .tx && !s.enabled .rx && s.hfault.isNone && s.dfault.isNone

/-- A step reference that names a step. -/
def Sel.bound : Sel → Bool
  | .none => false
  | .w8 => true
  | .w16 => true
  | .reserved => false

/-- The arming invariant of R251 for one direction: enable bit set only while BUSY with a bound step. -/
def ArmedIsBound (s : State) (d : Dir) : Prop :=
  s.enabled d = true → (s.desc d).state = .busy ∧ (s.desc d).sel.bound = true

/-- What R251 needs of dph: the CR2 value a dispatch holds is the live one, and a close has disarmed its direction from
K2 on. -/
def DispCopyLive (s : State) : Prop :=
  match s.dph with
  | .i1 e => e = s.cr2
  | .i2 e _ => e = s.cr2
  | .i4 e => e = s.cr2
  | .i5 e _ => e = s.cr2
  | .close _ (.k1 c2) => c2 = s.cr2
  | .close d .k2 => s.enabled d = false
  | .close d .k3 => s.enabled d = false
  | .close d .k4 => s.enabled d = false
  | .close d .k5 => s.enabled d = false
  | _ => True

/-- What R251 needs of hph: a submit past S3 has made its direction BUSY, past S5 it has bound the step, and the CR2
value it holds at S7 is the live one. -/
def HostCopyLive (s : State) : Prop :=
  match s.hph with
  | .submit d _ _ .s4 => (s.desc d).state = .busy
  | .submit d _ _ (.s5 _) => (s.desc d).state = .busy
  | .submit d _ _ .s6 => (s.desc d).state = .busy ∧ (s.desc d).sel.bound = true
  | .submit d _ _ (.s7 c2) => (s.desc d).state = .busy ∧ (s.desc d).sel.bound = true ∧ c2 = s.cr2
  | _ => True

/-- A fault other than a call through a null or reserved reference. -/
def notNullCall : Option Fault → Prop
  | some (.nullStep _) => False
  | some (.reservedSel _) => False
  | _ => True

/-- R251 made inductive, for a machine with ATOMIC_HOST true, where the window of R258 does not exist. -/
structure ArmInv (s : State) : Prop where
  atomic : s.par.atomicHost = true
  alone  : s.hph = .idle ∨ s.dph = .idle
  arm    : ∀ d, ArmedIsBound s d
  host   : HostCopyLive s
  disp   : DispCopyLive s
  noNull : notNullCall s.dfault

/-- DISP stands in a step or the close of a direction. -/
def serving (d : Dir) : DispPhase → Bool
  | .stepTx _ _ => decide (d = .tx)
  | .stepRx _ _ => decide (d = .rx)
  | .close d' _ => decide (d = d')
  | .idle => false
  | .i0 => false
  | .i1 _ => false
  | .i2 _ _ => false
  | .i3 => false
  | .i4 _ => false
  | .i5 _ _ => false

/-- HOST is in a submit of a direction, at this line. -/
def State.submitting (s : State) (d : Dir) : Option SubmitLine :=
  match s.hph with
  | .submit d' _ _ ln => if d = d' then some ln else none
  | _ => none

/-- How far a submit in progress has populated its descriptor (R150 lines S1 to S5). -/
def SubmitProgress (s : State) (d : Dir) : Prop :=
  match s.submitting d with
  | some .s0b => (s.desc d).state = .free ∧ (s.desc d).sel = .none
  | some .s1 => (s.desc d).state = .free ∧ (s.desc d).sel = .none
  | some .s2 => (s.desc d).state = .free ∧ (s.desc d).sel = .none
  | some .s3 => (s.desc d).state = .free ∧ (s.desc d).sel = .none
  | some .s4 => (s.desc d).state = .busy ∧ (s.desc d).sel = .none ∧ serving d s.dph = false
  | some (.s5 _) => (s.desc d).state = .busy ∧ (s.desc d).sel = .none ∧ serving d s.dph = false
  | _ => True

/-- A FREE descriptor is closed (R34), but for the fields a submit of its direction has already written (S1, S2). -/
def FreeIsClosed (s : State) (d : Dir) : Prop :=
  (s.desc d).state = .free →
    match s.submitting d with
    | some .s2 => (s.desc d).len = 0 ∧ (s.desc d).sel = .none
    | some .s3 => (s.desc d).sel = .none
    | _ => s.desc d = Desc.closed

/-- A step or a close runs on a BUSY descriptor, and a close has cleared what its lines so far clear (R165, R166). -/
def CloseProgress (s : State) (d : Dir) : Prop :=
  (serving d s.dph = true → (s.desc d).state = .busy) ∧
    (s.dph = .close d .k3 → (s.desc d).cur = nullAddr) ∧
    (s.dph = .close d .k4 → (s.desc d).cur = nullAddr ∧ (s.desc d).len = 0) ∧
    (s.dph = .close d .k5 → (s.desc d).cur = nullAddr ∧ (s.desc d).len = 0 ∧ (s.desc d).sel = .none)

/-- R34 made inductive, at micro-step grain, with or without the hazard of R258. -/
structure ClosedInv (s : State) : Prop where
  bound  : ∀ d, (s.desc d).sel ≠ .none → (s.desc d).state = .busy
  closed : ∀ d, FreeIsClosed s d
  submit : ∀ d, SubmitProgress s d
  close  : ∀ d, CloseProgress s d

end Sys2Proof.Machine
end

