-- ==== Sys2Proof/Certificates/Slice0/Obligations.lean ====
section
/-! DEFINITION. The statements for the provers. A statement over every state quantifies over every value of the OPEN
parameters too: they are the field par of the state (log 6). Numerals for bits of CR1, CR2 and SR are the positions
R8 takes (log 11). -/

open Sys2Proof Sys2Proof.Machine

/-! ## Encoding -/

/-- Decode and encode agree on every well-formed instruction, every operand at every value (R101, R102, R104, R106,
R107, R108). -/
def Obligations.DecodeOfEncode : Prop :=
  ∀ i : Instr, i.wellFormed = true → decode (encode i) = .ok i

/-- Each operation word has at most one meaning and every bit of it is read: what decodes is well formed and encodes
back to the same word. -/
def Obligations.EncodeOfDecode : Prop :=
  ∀ (w : OpWord) (i : Instr), decode w = .ok i → i.wellFormed = true ∧ encode i = w

/-- Words written out from the spec's encodings (R102, R104, R106, R107, R108; vectors B8, B2). -/
def Obligations.DecodeSampleWords : Prop :=
  decode (.c 0x010000006000000000) = .ok (.init ⟨0, 0, 0, 1, 1, 0, 0, 0⟩) ∧
  decode (.c 0x022000000000000005) = .ok (.submitTx 0x20000000 5) ∧
  decode (.c 0x03FFFFFFFFFFFFFFFF) = .ok (.submitRx 0xFFFFFFFF 4294967295) ∧
  decode (.c 0x040000000000000080) = .ok (.flagStatus 0x0080) ∧
  decode (.c 0x050000000000000001) = .ok (.getState .rx) ∧
  decode (.c 0x062000000000000002) = .ok (.blkTx 0x20000000 2) ∧
  decode (.u 0b010) = .ok .stepTx16 ∧
  decode (.u 0b101) = .ok .stepRx8 ∧
  decode (.t 0b11) = .ok .closeRx ∧
  decode (.e 0b1) = .ok .irqDispatch

/-- A command word is reserved exactly when no row of R102 matches it, and no word matches two rows. -/
def Obligations.ReservedExactlyOffTheRows : Prop :=
  (∀ w : CmdWord, decode (.c w) = .error (.reservedCommand w) ↔ ∀ r ∈ commandRows, r.hits w = false) ∧
  (∀ w : CmdWord, ∀ r ∈ commandRows, ∀ q ∈ commandRows, r.hits w = true → q.hits w = true → r = q)

/-! ## The step -/

/-- A step runs the decoded operation: where the turn fetches a word that decodes to i, the step is exec of i on the
state with the turn consumed. Turns are the model's form of the schedule (logs 1, 16). -/
def Obligations.StepRunsDecodedOperation : Prop :=
  ∀ (s : State) (w : OpWord) (i : Instr), s.fetch = some w → decode w = .ok i → step s = exec i s.consume

/-- What a turn fetches (turns: logs 1, 16): HOST's command word where HOST may begin one; at DISP's turn the event where a dispatch may
start and the selector of the step or close at whose first line DISP stands. -/
def Obligations.FetchedWords : Prop :=
  (∀ (s : State) (w : CmdWord) (ts : List Turn), s.sched = .hostOp w :: ts → s.hostMayBegin = true →
    s.fetch = some (.c w)) ∧
  (∀ (s : State) (ts : List Turn), s.sched = .dispOp :: ts → s.dispMayStart = true → s.fetch = some (encode .irqDispatch)) ∧
  (∀ (s : State) (ts : List Turn), s.sched = .dispOp :: ts → s.dfault = none →
    (s.dph = .stepTx .w8 .t0 → s.fetch = some (encode .stepTx8)) ∧
    (s.dph = .stepTx .w16 .t0 → s.fetch = some (encode .stepTx16)) ∧
    (s.dph = .stepRx .w8 .t0 → s.fetch = some (encode .stepRx8)) ∧
    (s.dph = .stepRx .w16 .t0 → s.fetch = some (encode .stepRx16)) ∧
    (s.dph = .close .tx .k0 → s.fetch = some (encode .closeTx)) ∧
    (s.dph = .close .rx .k0 → s.fetch = some (encode .closeRx)))

/-- A reserved command word and an invalid flag identifier are refused by name, whether the command is to run whole or
line by line; nothing of the command happens (R109 (a), (d), R141, R222; that a refusal leaves no state: log 5). -/
def Obligations.RejectedCommandsRefused : Prop :=
  ∀ (s : State) (w : CmdWord) (t : Turn) (ts : List Turn), (t = .hostOp w ∨ t = .hostStart w) → s.sched = t :: ts →
    s.hostMayBegin = true →
    ((∀ r ∈ commandRows, r.hits w = false) → step s = .refused (.reservedCommand w)) ∧
    (∀ m : Half, w = cmdWord 4 0 (0#16 ++ m) → validFlagMask m = false → step s = .refused (.invalidFlagId m))

/-! ## Register Model -/

/-- `RegRead` and `RegWrite` (R130, R131): the whole register, nothing else changes, irq follows at once. -/
def Obligations.RegWriteWholeRegister : Prop :=
  ∀ (s : State) (v : Half),
    s.regWrite .cr1 v = { s with cr1 := v } ∧ s.regWrite .cr2 v = { s with cr2 := v } ∧
    (∀ r : WReg, (s.regWrite r v).regRead r.reg = v ∧ (s.regWrite r v).regRead .sr = s.sr) ∧
    (s.regWrite .cr2 v).irq = (gateOpen .tx v s.sr || gateOpen .rx v s.sr)

/-- `RMW_SET` (R132): line 2 writes the value line 1 read with bit k set, whatever the register holds by then; alone it
sets bit k, keeps every other bit and everything else; it is the arming of a submit (S6, S7). -/
def Obligations.RmwSetTwoLines : Prop :=
  (∀ (s : State) (r : WReg) (k : Fin 16) (c : Half) (j : Fin 16),
    ((s.rmwSetWrite r k c).regRead r.reg).getLsbD j = (decide (j = k) || c.getLsbD j)) ∧
  (∀ (s : State) (r : WReg) (k : Nat) (c live : Half), (s.regWrite r live).rmwSetWrite r k c = s.rmwSetWrite r k c) ∧
  (∀ (s : State) (r : WReg) (k : Nat) (c : Half),
    s.rmwSetWrite r k c = s.regWrite r ((s.rmwSetWrite r k c).regRead r.reg) ∧
    s.rmwSet r k = s.rmwSetWrite r k (s.regRead r.reg)) ∧
  (∀ (s : State) (r : WReg) (k : Fin 16), (s.regRead r.reg).getLsbD k = true → s.rmwSet r k = s) ∧
  (∀ (s : State) (d : Dir) (buf : Addr) (len : Len) (c2 : Half),
    submitMicro d buf len .s6 s = s.atSubmit d buf len (.s7 s.cr2) ∧
    submitMicro d buf len (.s7 c2) s = (s.rmwSetWrite .cr2 (enableBit d) c2).respond respAccepted) ∧
  (∀ s : State, s.cr2 = 0x0040 → (s.rmwSet .cr2 7).cr2 = 0x00C0)

/-- `RMW_CLR` (R133), and the two lines of a close that use it (R165 K0, K1). -/
def Obligations.RmwClrTwoLines : Prop :=
  (∀ (s : State) (r : WReg) (k : Fin 16) (c : Half) (j : Fin 16),
    ((s.rmwClrWrite r k c).regRead r.reg).getLsbD j = (!decide (j = k) && c.getLsbD j)) ∧
  (∀ (s : State) (r : WReg) (k : Nat) (c live : Half), (s.regWrite r live).rmwClrWrite r k c = s.rmwClrWrite r k c) ∧
  (∀ (s : State) (d : Dir) (c2 : Half),
    closeMicro d .k0 s = { s with dph := .close d (.k1 s.cr2) } ∧
    closeMicro d (.k1 c2) s = { s.rmwClrWrite .cr2 (enableBit d) c2 with dph := .close d .k2 })

/-- `DR_RD` (R134): the w-bit value of DR_RX, RXNE cleared in the same micro-step, nothing else changed; read again it
returns the same value and finds RXNE 0; it never returns DR_TX; irq may fall. -/
def Obligations.DrReadClearsRxne : Prop :=
  (∀ (s : State) (w : FrameWidth),
    (s.drRd w).1 = (match w with
      | .w8 => (s.drRx.extractLsb' 0 8).setWidth 16
      | .w16 => s.drRx) ∧
    (s.drRd w).2 = { s with sr := (s.drRd w).2.sr } ∧
    (∀ j : Fin 16, (s.drRd w).2.sr.getLsbD j = (decide (j.val ≠ 0) && s.sr.getLsbD j)) ∧
    ((s.drRd w).2.drRd w).1 = (s.drRd w).1 ∧ (s.drRd w).2.rxne = false ∧
    (∀ v : Half, ({ s with drTx := v }.drRd w).1 = (s.drRd w).1)) ∧
  (∃ s : State, s.irq = true ∧ (s.drRd .w8).2.irq = false) ∧
  (∀ s : State, s.drRx = 0xABCD → (s.drRd .w8).1 = 0xCD ∧ (s.drRd .w16).1 = 0xABCD)

/-- `DR_WR` (R135): DR_TX takes the value zero-extended, the frame is logged with its width, TXE is cleared in the same
micro-step, whatever TXE was; nothing else changes. -/
def Obligations.DrWriteLogsAndClearsTxe : Prop :=
  (∀ (s : State) (v : Half),
    (s.drWr .w16 v).drTx = v ∧ (s.drWr .w16 v).txlog = s.txlog ++ [.b16 v] ∧
    (s.drWr .w8 v).drTx = (v.extractLsb' 0 8).setWidth 16 ∧
    (s.drWr .w8 v).txlog = s.txlog ++ [.b8 (v.extractLsb' 0 8)]) ∧
  (∀ (s : State) (w : FrameWidth) (v : Half),
    (∀ j : Fin 16, (s.drWr w v).sr.getLsbD j = (decide (j.val ≠ 1) && s.sr.getLsbD j)) ∧
    { s.drWr w v with drTx := s.drTx, txlog := s.txlog, sr := s.sr } = s) ∧
  (∀ s : State, (s.drWr .w8 0x11).drTx = 0x0011 ∧ (s.drWr .w8 0x11).txlog = s.txlog ++ [.b8 0x11] ∧
    (s.drWr .w8 0x11).txe = false)

/-- The request line (R210): exactly the two sources, each enable AND flag; a function of CR2 and SR alone. -/
def Obligations.IrqIsTheTwoSources : Prop :=
  (∀ s : State, s.irq = true ↔
    (s.cr2.getLsbD Config.bitTxeie = true ∧ s.sr.getLsbD Config.bitTxe = true) ∨
      (s.cr2.getLsbD Config.bitRxneie = true ∧ s.sr.getLsbD Config.bitRxne = true)) ∧
  (∀ s t : State, s.cr2 = t.cr2 → s.sr = t.sr → s.irq = t.irq)

/-! ## Memory -/

/-- Reading a byte after it is written gives what was written, every other byte is as before, nothing but memory changes;
a two-byte unit is stored and read back in either byte order, at an address and the next modulo 2^32 (R73). The premise
is the canonical form (the model's own, log 8), kept by every step (Obligations.StepKeepsMemoryCanonical). -/
def Obligations.MemoryReadAfterWrite : Prop :=
  (∀ (s : State) (a : Addr) (v : Byte),
    (s.mem.wf = true → (s.putByte a v).byteAt a = v) ∧
    (∀ b : Addr, b ≠ a → (s.putByte a v).byteAt b = s.byteAt b) ∧
    { s.putByte a v with mem := s.mem } = s) ∧
  (∀ (s : State) (a : Addr) (v : Half), s.mem.wf = true →
    (s.writeUnit .w16 a v).readUnit .w16 a = v ∧
    (s.writeUnit .w8 a v).readUnit .w8 a = (v.extractLsb' 0 8).setWidth 16 ∧
    (s.par.byteOrder = .little →
      (s.writeUnit .w16 a v).byteAt a = v.extractLsb' 0 8 ∧ (s.writeUnit .w16 a v).byteAt (a + 1) = v.extractLsb' 8 8) ∧
    (s.par.byteOrder = .big →
      (s.writeUnit .w16 a v).byteAt a = v.extractLsb' 8 8 ∧ (s.writeUnit .w16 a v).byteAt (a + 1) = v.extractLsb' 0 8))

/-- Every step keeps the memory in canonical form (the model's own, log 8). -/
def Obligations.StepKeepsMemoryCanonical : Prop :=
  ∀ s t : State, s.mem.wf = true → step s = .next t → t.mem.wf = true

/-! ## Host commands -/

/-- `INIT` completes where HOST may begin and both directions are FREE (R200): the record is stored, CR1 takes
InitCR1 of it, the response is DONE, nothing else changes. While a direction is BUSY it is refused, as a whole and at
line N0 (R222; a refusal leaves no state: log 5). With the reference InitCR1, 0x60 gives CR1 = 0x0804. -/
def Obligations.InitCompletesOrIsRefused : Prop :=
  ∀ (c : Cfg) (s : State),
    (s.hostMayBegin = true → s.tx.state = .free → s.rx.state = .free →
      exec (.init c) s = .next { s with cfg := c, cr1 := initCr1 s.par.initCr1 c, resp := some 0 }) ∧
    (s.tx.state = .busy ∨ s.rx.state = .busy →
      (s.hostMayBegin = true → exec (.init c) s = .refused .initWhileBusy) ∧
      (s.hph = .init c .n0 → hostMicro s = .refused .initWhileBusy)) ∧
    (s.hostMayBegin = true → s.tx.state = .free → s.rx.state = .free → s.par.initCr1 = .reference →
      exec (.init (unpackCfg 0x060)) s = .next { s with cfg := ⟨0, 0, 0, 1, 1, 0, 0, 0⟩, cr1 := 0x0804, resp := some 0 })

/-- Whatever InitCR1 is (log 7), its DFF bit is the record's (R201), so a submit after an `INIT` binds the configured width;
the reference layout gives the other fields their bits and leaves the rest 0. -/
def Obligations.InitCr1KeepsDff : Prop :=
  (∀ (k : InitCr1Kind) (c : Cfg), (initCr1 k c).getLsbD 11 = decide (c.dff = 1)) ∧
  (∀ (k : InitCr1Kind) (c : Cfg), dffWidth (initCr1 k c) = if c.dff = 1 then .w16 else .w8) ∧
  (∀ c : Cfg, let r := initCr1 .reference c
    r.extractLsb' 0 1 = c.cpha ∧ r.extractLsb' 1 1 = c.cpol ∧ r.extractLsb' 2 1 = c.mode ∧
    r.extractLsb' 3 3 = c.baud ∧ r.extractLsb' 6 1 = 0 ∧ r.extractLsb' 7 1 = c.lsbfirst ∧ r.extractLsb' 8 1 = 0 ∧
    r.extractLsb' 9 1 = c.ssm ∧ r.extractLsb' 10 1 = 0 ∧ r.extractLsb' 11 1 = c.dff ∧ r.extractLsb' 12 4 = 0)

/-- `SUBMIT_TX` and `SUBMIT_RX` complete on a FREE descriptor of their direction (R150, R151, R155), whatever the other
direction does: populated, the width bound from the live CR1, the enable bit set, ACCEPTED; the span is recorded; nothing
else changes. -/
def Obligations.SubmitAccepted : Prop :=
  ∀ (buf : Addr) (len : Len) (s : State), s.hostMayBegin = true →
    ¬ (s.par.strictLength = true ∧ s.cr1.getLsbD 11 = true ∧ len.getLsbD 0 = true) →
    (s.tx.state = .free →
      exec (.submitTx buf len) s = .next { s with
        tx := ⟨len, buf, .busy, if s.cr1.getLsbD 11 then .w16 else .w8⟩, cr2 := s.cr2 ||| 0x0080, resp := some 0,
        txSpan := some ⟨buf, len⟩ }) ∧
    (s.rx.state = .free →
      exec (.submitRx buf len) s = .next { s with
        rx := ⟨len, buf, .busy, if s.cr1.getLsbD 11 then .w16 else .w8⟩, cr2 := s.cr2 ||| 0x0040, resp := some 0,
        rxSpan := some ⟨buf, len⟩ })

/-- Busy rejection (R152): the response BUSY is the only trace; the test is on the submitted direction only. -/
def Obligations.BusySubmitRejected : Prop :=
  (∀ (buf : Addr) (len : Len) (s : State), s.hostMayBegin = true →
    (s.tx.state = .busy → exec (.submitTx buf len) s = .next { s with resp := some 1 }) ∧
    (s.rx.state = .busy → exec (.submitRx buf len) s = .next { s with resp := some 1 })) ∧
  (∀ (buf : Addr) (len : Len) (s : State), s.hostMayBegin = true → s.par.strictLength = false →
    (s.tx.state = .free → s.rx.state = .busy →
      ∃ t, exec (.submitTx buf len) s = .next t ∧ t.resp = some 0 ∧ t.tx.state = .busy ∧ t.rx = s.rx) ∧
    (s.rx.state = .free → s.tx.state = .busy →
      ∃ t, exec (.submitRx buf len) s = .next t ∧ t.resp = some 0 ∧ t.rx.state = .busy ∧ t.tx = s.tx))

/-- STRICT_LENGTH (R155): an odd length with 16-bit frames is answered INVALID_LENGTH and nothing else is written; with
it false INVALID_LENGTH is never answered. -/
def Obligations.StrictLengthRejectsOdd : Prop :=
  (∀ (buf : Addr) (len : Len) (s : State), s.hostMayBegin = true → s.par.strictLength = true →
    s.cr1.getLsbD 11 = true → len.getLsbD 0 = true →
    (s.tx.state = .free → exec (.submitTx buf len) s = .next { s with resp := some 2 }) ∧
    (s.rx.state = .free → exec (.submitRx buf len) s = .next { s with resp := some 2 })) ∧
  (∀ (buf : Addr) (len : Len) (s t : State), s.hostMayBegin = true → s.par.strictLength = false →
    (exec (.submitTx buf len) s = .next t ∨ exec (.submitRx buf len) s = .next t) → t.resp = some 0 ∨ t.resp = some 1)

/-- `FLAG_STATUS` completes for a valid identifier, the one-bit mask of TXE, RXNE or BSY (R112), with SET exactly when
that bit of SR is 1, and changes nothing but the response (R140); with any other mask it is refused and produces no
response (R141). -/
def Obligations.FlagStatusAnswersOrIsRefused : Prop :=
  (∀ s : State, s.hostMayBegin = true →
    exec (.flagStatus 0x0002) s = .next { s with resp := some (if s.sr.getLsbD 1 then 1 else 0) } ∧
    exec (.flagStatus 0x0001) s = .next { s with resp := some (if s.sr.getLsbD 0 then 1 else 0) } ∧
    exec (.flagStatus 0x0080) s = .next { s with resp := some (if s.sr.getLsbD 7 then 1 else 0) }) ∧
  (∀ (m : Half) (s : State), m ≠ 0x0002 → m ≠ 0x0001 → m ≠ 0x0080 →
    exec (.flagStatus m) s = .refused (.invalidFlagId m))

/-- `GET_STATE` completes with the bus state of the direction, FREE 0 or BUSY 1, and changes nothing but the response
(R142). -/
def Obligations.GetStateAnswers : Prop :=
  ∀ s : State, s.hostMayBegin = true →
    exec (.getState .tx) s = .next { s with resp := some (if s.tx.state = .free then 0 else 1) } ∧
    exec (.getState .rx) s = .next { s with resp := some (if s.rx.state = .free then 0 else 1) }

/-- Where `BLK_TX` ends alone (R190): with nothing to send when BSY is 0, or after the one unit it is given when TXE is
1 and BSY is 0; that unit is the frame at buf at the width of the live CR1. -/
def Obligations.BlkTxCompletes : Prop :=
  ∀ (buf : Addr) (len : Len) (s : State), s.hostMayBegin = true → s.bsy = false →
    (len = 0 → exec (.blkTx buf len) s = .next { s with resp := some 0 }) ∧
    (s.txe = true → len = unitBytes (dffWidth s.cr1) → s.alignFaults (dffWidth s.cr1) buf = false →
      exec (.blkTx buf len) s =
        .next { s.drWr (dffWidth s.cr1) (s.readUnit (dffWidth s.cr1) buf) with resp := some 0 })

/-- Where `BLK_TX` waits alone (R190, R192): at B2 until TXE, before the first unit and, after one, before the next; at
B7 until BSY is 0. That a whole command stays at such a line is log 3. -/
def Obligations.BlkTxWaits : Prop :=
  ∀ (buf : Addr) (len : Len) (s : State), s.hostMayBegin = true →
    (len = 0 → s.bsy = true → exec (.blkTx buf len) s = .next { s with hph := .blk .tx buf len .b7 }) ∧
    (len ≠ 0 → s.txe = false → exec (.blkTx buf len) s = .next { s with hph := .blk .tx buf len (.b2 buf len) }) ∧
    (len ≠ 0 → s.txe = true → s.alignFaults (dffWidth s.cr1) buf = false → len ≠ unitBytes (dffWidth s.cr1) →
      exec (.blkTx buf len) s =
        .next { s.drWr (dffWidth s.cr1) (s.readUnit (dffWidth s.cr1) buf) with
          hph := .blk .tx buf len (.b2 (buf + unitBytes (dffWidth s.cr1)) (len - unitBytes (dffWidth s.cr1))) }) ∧
    (s.txe = true → s.alignFaults (dffWidth s.cr1) buf = false → len = unitBytes (dffWidth s.cr1) → s.bsy = true →
      exec (.blkTx buf len) s =
        .next { s.drWr (dffWidth s.cr1) (s.readUnit (dffWidth s.cr1) buf) with hph := .blk .tx buf len .b7 })

/-- Where `BLK_RX` ends alone (R191): with nothing to receive, or after the one unit it is given when RXNE is 1; there is
no wait on BSY. -/
def Obligations.BlkRxCompletes : Prop :=
  ∀ (buf : Addr) (len : Len) (s : State), s.hostMayBegin = true →
    (len = 0 → exec (.blkRx buf len) s = .next { s with resp := some 0 }) ∧
    (s.rxne = true → len = unitBytes (dffWidth s.cr1) → s.alignFaults (dffWidth s.cr1) buf = false →
      exec (.blkRx buf len) s =
        .next { (s.drReadEffect.writeUnit (dffWidth s.cr1) buf (s.drValue (dffWidth s.cr1))) with resp := some 0 })

/-- Where `BLK_RX` waits alone (R191, R192): at B2 until RXNE, before the first unit and, after one, before the next.
That a whole command stays at such a line is log 3. -/
def Obligations.BlkRxWaits : Prop :=
  ∀ (buf : Addr) (len : Len) (s : State), s.hostMayBegin = true → len ≠ 0 →
    (s.rxne = false → exec (.blkRx buf len) s = .next { s with hph := .blk .rx buf len (.b2 buf len) }) ∧
    (s.rxne = true → s.alignFaults (dffWidth s.cr1) buf = false → len ≠ unitBytes (dffWidth s.cr1) →
      exec (.blkRx buf len) s =
        .next { (s.drReadEffect.writeUnit (dffWidth s.cr1) buf (s.drValue (dffWidth s.cr1))) with
          hph := .blk .rx buf len (.b2 (buf + unitBytes (dffWidth s.cr1)) (len - unitBytes (dffWidth s.cr1))) })

/-- A misaligned two-byte access of a blocking command under the fault policy (R74, R195, R222): the fault names the
command and the address, HOST stops at the line; `BLK_RX` has read DR already. -/
def Obligations.BlkMisalignedStops : Prop :=
  ∀ (buf : Addr) (len : Len) (s : State), s.hostMayBegin = true → len ≠ 0 → s.cr1.getLsbD 11 = true →
    buf.getLsbD 0 = true → s.par.align = .fault →
    (s.txe = true → exec (.blkTx buf len) s = .next { s with
      hfault := some (.misaligned16 .blkTx buf), hph := .blk .tx buf len (.b4 buf len .w16) }) ∧
    (s.rxne = true → exec (.blkRx buf len) s = .next { s.drReadEffect with
      hfault := some (.misaligned16 .blkRx buf), hph := .blk .rx buf len (.b5 buf len .w16 s.drRx) })

/-- The spin loops have no bound (R192): with the flag not there, HOST's micro-step at B2 or B7 leaves the state as it
is. -/
def Obligations.BlkSpinsWithoutTheFlag : Prop :=
  ∀ (s : State) (buf : Addr) (len n : Len) (p : Addr),
    (s.hph = .blk .tx buf len (.b2 p n) → s.txe = false → hostMicro s = .next s) ∧
    (s.hph = .blk .tx buf len .b7 → s.bsy = true → hostMicro s = .next s) ∧
    (s.hph = .blk .rx buf len (.b2 p n) → s.rxne = false → hostMicro s = .next s)

/-- A command that HOST may not begin, one already in flight or a dispatch in progress, has no step (R101, R230); that
the state then stays as it is is the model's choice (log 2). -/
def Obligations.CommandsWaitForHost : Prop :=
  ∀ s : State, s.hostMayBegin = false →
    (∀ c, exec (.init c) s = .next s) ∧
    (∀ buf len, exec (.submitTx buf len) s = .next s) ∧
    (∀ buf len, exec (.submitRx buf len) s = .next s) ∧
    (∀ m, validFlagMask m = true → exec (.flagStatus m) s = .next s) ∧
    (∀ d, exec (.getState d) s = .next s) ∧
    (∀ buf len, exec (.blkTx buf len) s = .next s) ∧
    (∀ buf len, exec (.blkRx buf len) s = .next s)

/-! ## Steps and closes -/

/-- `STEP_TX8` and `STEP_TX16` complete at their first line when the access is allowed (R160, R161, R162): the unit at
the cursor goes to DR and the log, cursor and count move by the unit width; at exactly zero the descriptor is closed and
the enable bit cleared; memory and everything else is as before. -/
def Obligations.StepTxCompletes : Prop :=
  ∀ (s : State), s.dfault = none →
    (s.dph = .stepTx .w8 .t0 → s.stepAccessFault .tx .w8 s.tx.cur = none →
      exec .stepTx8 s = .next
        (let m := { s with drTx := (s.byteAt s.tx.cur).setWidth 16, txlog := s.txlog ++ [LogEntry.b8 (s.byteAt s.tx.cur)],
                           sr := clrBit s.sr 1, dph := .i3 }
         if s.tx.len = 1 then { m with tx := Desc.closed, cr2 := clrBit s.cr2 7, txSpan := none }
         else { m with tx := { s.tx with cur := s.tx.cur + 1, len := s.tx.len - 1 } })) ∧
    (s.dph = .stepTx .w16 .t0 → s.stepAccessFault .tx .w16 s.tx.cur = none →
      exec .stepTx16 s = .next
        (let x := assemble s.par.byteOrder (s.byteAt s.tx.cur) (s.byteAt (s.tx.cur + 1))
         let m := { s with drTx := x, txlog := s.txlog ++ [LogEntry.b16 x], sr := clrBit s.sr 1, dph := .i3 }
         if s.tx.len = 2 then { m with tx := Desc.closed, cr2 := clrBit s.cr2 7, txSpan := none }
         else { m with tx := { s.tx with cur := s.tx.cur + 2, len := s.tx.len - 2 } }))

/-- `STEP_RX8` and `STEP_RX16` complete at their first line when the access is allowed (R160, R163, R164): DR_RX at frame
width is stored at the cursor, in the byte order, and nowhere else; RXNE is cleared, cursor and count move by the unit
width; at exactly zero the descriptor is closed and the enable bit cleared; everything else is as before. -/
def Obligations.StepRxCompletes : Prop :=
  ∀ (s : State), s.mem.wf = true → s.dfault = none →
    (s.dph = .stepRx .w8 .t0 → s.stepAccessFault .rx .w8 s.rx.cur = none →
      ∃ t, exec .stepRx8 s = .next t ∧
        t.byteAt s.rx.cur = s.drRx.extractLsb' 0 8 ∧
        (∀ a, a ≠ s.rx.cur → t.byteAt a = s.byteAt a) ∧
        { t with mem := s.mem } =
          (let m := { s with sr := clrBit s.sr 0, dph := .idle }
           if s.rx.len = 1 then { m with rx := Desc.closed, cr2 := clrBit s.cr2 6, rxSpan := none }
           else { m with rx := { s.rx with cur := s.rx.cur + 1, len := s.rx.len - 1 } })) ∧
    (s.dph = .stepRx .w16 .t0 → s.stepAccessFault .rx .w16 s.rx.cur = none →
      ∃ t, exec .stepRx16 s = .next t ∧
        assemble s.par.byteOrder (t.byteAt s.rx.cur) (t.byteAt (s.rx.cur + 1)) = s.drRx ∧
        (∀ a, a ≠ s.rx.cur → a ≠ s.rx.cur + 1 → t.byteAt a = s.byteAt a) ∧
        { t with mem := s.mem } =
          (let m := { s with sr := clrBit s.sr 0, dph := .idle }
           if s.rx.len = 2 then { m with rx := Desc.closed, cr2 := clrBit s.cr2 6, rxSpan := none }
           else { m with rx := { s.rx with cur := s.rx.cur + 2, len := s.rx.len - 2 } }))

/-- A 16-bit step at an odd cursor under the fault policy (R74, R162, R164, R222): Misaligned16 with the direction and
the address, whatever the bounds say; the transmit step has done nothing, the receive step has only read DR. -/
def Obligations.StepMisalignedStops : Prop :=
  ∀ s : State, s.dfault = none → s.par.align = .fault →
    (s.dph = .stepTx .w16 .t0 → s.tx.cur.getLsbD 0 = true →
      exec .stepTx16 s = .next { s with dfault := some (.misaligned16 (.step .tx) s.tx.cur) }) ∧
    (s.dph = .stepRx .w16 .t0 → s.rx.cur.getLsbD 0 = true →
      exec .stepRx16 s = .next { s with sr := clrBit s.sr 0, dph := .stepRx .w16 (.t1 s.drRx),
                                        dfault := some (.misaligned16 (.step .rx) s.rx.cur) })

/-- A step's access with a byte outside the lent span, BOUNDS_CHECK true (R46, R222): BufferBounds with the direction and
the lowest byte address outside (the whole access is checked at its first micro-step: log 13). An access faults exactly
when a byte of it is outside, and the span is [buf, buf + len), modulo 2^32; with no span recorded every byte is outside;
an access that is aligned or split, with every byte inside or BOUNDS_CHECK false, does not fault. -/
def Obligations.StepOutOfBoundsStops : Prop :=
  (∀ (s : State) (b : Addr), s.dfault = none → s.par.boundsCheck = true →
    (s.dph = .stepTx .w8 .t0 → outOfBounds s.txSpan .w8 s.tx.cur = some b →
      exec .stepTx8 s = .next { s with dfault := some (.bufferBounds .tx b) }) ∧
    (s.dph = .stepTx .w16 .t0 → s.alignFaults .w16 s.tx.cur = false → outOfBounds s.txSpan .w16 s.tx.cur = some b →
      exec .stepTx16 s = .next { s with dfault := some (.bufferBounds .tx b) }) ∧
    (s.dph = .stepRx .w8 .t0 → outOfBounds s.rxSpan .w8 s.rx.cur = some b →
      exec .stepRx8 s = .next { s with sr := clrBit s.sr 0, dph := .stepRx .w8 (.t1 (s.drValue .w8)),
                                       dfault := some (.bufferBounds .rx b) }) ∧
    (s.dph = .stepRx .w16 .t0 → s.alignFaults .w16 s.rx.cur = false → outOfBounds s.rxSpan .w16 s.rx.cur = some b →
      exec .stepRx16 s = .next { s with sr := clrBit s.sr 0, dph := .stepRx .w16 (.t1 s.drRx),
                                        dfault := some (.bufferBounds .rx b) })) ∧
  (∀ (sp : Option Span) (a : Addr),
    (∀ b, outOfBounds sp .w8 a = some b ↔ b = a ∧ outside sp a = true) ∧
    (outOfBounds sp .w16 a = none ↔ outside sp a = false ∧ outside sp (a + 1) = false) ∧
    (∀ b, outOfBounds sp .w16 a = some b ↔ (b = a ∨ b = a + 1) ∧ outside sp b = true ∧
      ∀ x, (x = a ∨ x = a + 1) → outside sp x = true → b.toNat ≤ x.toNat)) ∧
  (∀ (buf : Addr) (len : Len) (a : Addr), outside none a = true ∧
    (outside (some ⟨buf, len⟩) a = false ↔ ∃ k : Nat, k < len.toNat ∧ a = buf + BitVec.ofNat 32 k) ∧
    (buf.toNat + len.toNat ≤ 2 ^ 32 →
      (outside (some ⟨buf, len⟩) a = false ↔ buf.toNat ≤ a.toNat ∧ a.toNat < buf.toNat + len.toNat))) ∧
  (∀ (s : State) (d : Dir) (w : FrameWidth) (a : Addr), s.stepAccessFault d w a = none ↔
    (w = .w16 → a.getLsbD 0 = true → s.par.align = .split) ∧
    (s.par.boundsCheck = true → outOfBounds (s.span d) w a = none))

/-- `CLOSE_TX` and `CLOSE_RX` complete at their first line (R165, R166): the direction's enable bit cleared and every
other bit of CR2 kept, the descriptor closed, the span forgotten, nothing else changed. -/
def Obligations.CloseCompletes : Prop :=
  ∀ s : State, s.dfault = none →
    (s.dph = .close .tx .k0 →
      exec .closeTx s = .next { s with tx := ⟨0, 0, .free, .none⟩, cr2 := s.cr2 &&& 0xFF7F, txSpan := none, dph := .i3 }) ∧
    (s.dph = .close .rx .k0 →
      exec .closeRx s = .next { s with rx := ⟨0, 0, .free, .none⟩, cr2 := s.cr2 &&& 0xFFBF, rxSpan := none,
                                       dph := .idle })

/-- A step runs only where IRQ_DISPATCH has invoked it, a close only as a step's tail (R160, R165): anywhere else there
is no such step, and the state stays as it is (log 2). -/
def Obligations.StepsRunOnlyWhenInvoked : Prop :=
  ∀ s : State,
    (s.dph ≠ .stepTx .w8 .t0 → exec .stepTx8 s = .next s) ∧
    (s.dph ≠ .stepTx .w16 .t0 → exec .stepTx16 s = .next s) ∧
    (s.dph ≠ .stepRx .w8 .t0 → exec .stepRx8 s = .next s) ∧
    (s.dph ≠ .stepRx .w16 .t0 → exec .stepRx16 s = .next s) ∧
    (s.dph ≠ .close .tx .k0 → exec .closeTx s = .next s) ∧
    (s.dph ≠ .close .rx .k0 → exec .closeRx s = .next s)

/-- An odd count under a 16-bit step (R167): it stays odd, the step does not close, the descriptor stays BUSY with its
step bound and CR2 is untouched. -/
def Obligations.OddCountNeverCloses : Prop :=
  ∀ s t : State, s.dfault = none →
    (s.dph = .stepTx .w16 .t0 → s.tx.len.getLsbD 0 = true → exec .stepTx16 s = .next t →
      t.tx.len.getLsbD 0 = true ∧ t.tx.state = s.tx.state ∧ t.tx.sel = s.tx.sel ∧ t.cr2 = s.cr2) ∧
    (s.dph = .stepRx .w16 .t0 → s.rx.len.getLsbD 0 = true → exec .stepRx16 s = .next t →
      t.rx.len.getLsbD 0 = true ∧ t.rx.state = s.rx.state ∧ t.rx.sel = s.rx.sel ∧ t.cr2 = s.cr2)

/-! ## The dispatcher -/

/-- The gate (R181), as a step is reached: at the test of a direction DISP goes to the first line of that direction's
step of a width exactly when the enable bit and the flag just read are both 1 and the step of that width is bound (R106);
otherwise it goes to no line of any step. -/
def Obligations.GateNeedsBoth : Prop :=
  ∀ (s : State) (e v : Half),
    (s.dph = .i2 e v →
      (∀ w, (dispMicro s).dph = .stepTx w .t0 ↔
        e.getLsbD 7 = true ∧ v.getLsbD 1 = true ∧ s.tx.sel = Sel.ofWidth w) ∧
      (inStep (dispMicro s).dph = true ↔ e.getLsbD 7 = true ∧ v.getLsbD 1 = true ∧ s.tx.sel.bound = true)) ∧
    (s.dph = .i5 e v →
      (∀ w, (dispMicro s).dph = .stepRx w .t0 ↔
        e.getLsbD 6 = true ∧ v.getLsbD 0 = true ∧ s.rx.sel = Sel.ofWidth w) ∧
      (inStep (dispMicro s).dph = true ↔ e.getLsbD 6 = true ∧ v.getLsbD 0 = true ∧ s.rx.sel.bound = true))

/-- A dispatch that finds neither gate open changes nothing (R181, R182, R186), whether irq was 1 or not. -/
def Obligations.ClosedGatesChangeNothing : Prop :=
  ∀ s : State, s.dispMayStart = true → gateOpen .tx s.cr2 s.sr = false → gateOpen .rx s.cr2 s.sr = false →
    exec .irqDispatch s = .next s

/-- A dispatch serves transmit first and receive second, each at most once (R180, R183, R184): m is what the transmit half
leaves, the bound step run from its first line where its gate is open, else nothing; where that step faults the dispatch
stops there (R231); else the receive gate is read on m, and where it is open with no step bound the dispatch stops with
NullStep or ReservedSel (R185). -/
def Obligations.DispatchServesTxThenRx : Prop :=
  ∀ s m : State, s.dispMayStart = true →
    ((gateOpen .tx s.cr2 s.sr = false ∧ m = { s with dph := .i3 }) ∨
     (gateOpen .tx s.cr2 s.sr = true ∧ s.tx.sel = .w8 ∧ exec .stepTx8 { s with dph := .stepTx .w8 .t0 } = .next m) ∨
     (gateOpen .tx s.cr2 s.sr = true ∧ s.tx.sel = .w16 ∧ exec .stepTx16 { s with dph := .stepTx .w16 .t0 } = .next m)) →
    (m.dfault ≠ none → exec .irqDispatch s = .next m) ∧
    (m.dfault = none →
      (gateOpen .rx m.cr2 m.sr = false → exec .irqDispatch s = .next { m with dph := .idle }) ∧
      (gateOpen .rx m.cr2 m.sr = true → m.rx.sel = .w8 →
        exec .irqDispatch s = exec .stepRx8 { m with dph := .stepRx .w8 .t0 }) ∧
      (gateOpen .rx m.cr2 m.sr = true → m.rx.sel = .w16 →
        exec .irqDispatch s = exec .stepRx16 { m with dph := .stepRx .w16 .t0 }) ∧
      (gateOpen .rx m.cr2 m.sr = true → m.rx.sel = .none →
        exec .irqDispatch s = .next { m with dph := .i5 m.cr2 m.sr, dfault := some (.nullStep .rx) }) ∧
      (gateOpen .rx m.cr2 m.sr = true → m.rx.sel = .reserved →
        exec .irqDispatch s = .next { m with dph := .i5 m.cr2 m.sr, dfault := some (.reservedSel .rx) }))

/-- A passed gate with no bound step (R185): NullStep or ReservedSel, DISP stopped at the test, nothing else changed; at
either test, however DISP came to it (after a transmit step too, R183), and as a whole dispatch, where the transmit gate
passes so or, the transmit gate closed, the receive gate does (after a transmit step: DispatchServesTxThenRx). -/
def Obligations.NullStepStops : Prop :=
  (∀ (s : State) (e v : Half), s.dfault = none →
    (s.dph = .i2 e v → gateOpen .tx e v = true →
      (s.tx.sel = .none → runTurn .dispMicro s = .next { s with dfault := some (.nullStep .tx) }) ∧
      (s.tx.sel = .reserved → runTurn .dispMicro s = .next { s with dfault := some (.reservedSel .tx) })) ∧
    (s.dph = .i5 e v → gateOpen .rx e v = true →
      (s.rx.sel = .none → runTurn .dispMicro s = .next { s with dfault := some (.nullStep .rx) }) ∧
      (s.rx.sel = .reserved → runTurn .dispMicro s = .next { s with dfault := some (.reservedSel .rx) }))) ∧
  ∀ s : State, s.dispMayStart = true →
    (gateOpen .tx s.cr2 s.sr = true →
      (s.tx.sel = .none → exec .irqDispatch s = .next { s with dph := .i2 s.cr2 s.sr, dfault := some (.nullStep .tx) }) ∧
      (s.tx.sel = .reserved →
        exec .irqDispatch s = .next { s with dph := .i2 s.cr2 s.sr, dfault := some (.reservedSel .tx) })) ∧
    (gateOpen .tx s.cr2 s.sr = false → gateOpen .rx s.cr2 s.sr = true →
      (s.rx.sel = .none → exec .irqDispatch s = .next { s with dph := .i5 s.cr2 s.sr, dfault := some (.nullStep .rx) }) ∧
      (s.rx.sel = .reserved →
        exec .irqDispatch s = .next { s with dph := .i5 s.cr2 s.sr, dfault := some (.reservedSel .rx) }))

/-- A dispatch that no fault stops has returned: dph is IDLE again and HOST's phase is as it was (R231, R232). -/
def Obligations.DispatchRunsToCompletion : Prop :=
  ∀ s : State, s.dispMayStart = true →
    ∃ t, exec .irqDispatch s = .next t ∧ t.hph = s.hph ∧ (t.dfault = none → t.dph = .idle)

/-- Interrupt entry and return (R230 (b), R232): starting a dispatch changes dph and nothing else; a return at I5 sets
dph to IDLE and restores nothing. -/
def Obligations.EntryAndReturnChangeOnlyDph : Prop :=
  (∀ s : State, s.dispMayStart = true → runTurn .dispStart s = .next { s with dph := .i0 }) ∧
  (∀ (s : State) (e v : Half), s.dph = .i5 e v → s.dfault = none → gateOpen .rx e v = false →
    runTurn .dispMicro s = .next { s with dph := .idle })

/-! ## Agents and scheduling -/

/-- While a dispatch is in progress HOST takes no step (R230 (c), R231): a turn of HOST leaves the state as it is
(log 2). With ATOMIC_HOST no dispatch starts while a command is in flight (R80). -/
def Obligations.ContextsExcludeEachOther : Prop :=
  ∀ (s : State) (w : CmdWord),
    (s.dph ≠ .idle → s.hfault = none →
      runTurn .hostMicro s = .next s ∧ runTurn (.hostStart w) s = .next s ∧ runTurn (.hostOp w) s = .next s ∧
      runTurn .scriptOp s = .next s ∧ runTurn .scriptMicro s = .next s) ∧
    (s.par.atomicHost = true → s.hph ≠ .idle → s.dph = .idle → s.dfault = none →
      runTurn .dispStart s = .next s ∧ runTurn .dispMicro s = .next s ∧ runTurn .dispOp s = .next s)

/-- A stopped agent takes no further step (R222): its turns answer its fault (log 4), and PERIPH still steps. -/
def Obligations.StoppedAgentTakesNoStep : Prop :=
  ∀ (s : State) (f : Fault) (w : CmdWord) (a : PeriphAct),
    (s.hfault = some f →
      runTurn .hostMicro s = .fault f ∧ runTurn (.hostStart w) s = .fault f ∧ runTurn (.hostOp w) s = .fault f ∧
      runTurn .scriptOp s = .fault f ∧ runTurn .scriptMicro s = .fault f) ∧
    (s.dfault = some f →
      runTurn .dispMicro s = .fault f ∧ runTurn .dispStart s = .fault f ∧ runTurn .dispOp s = .fault f) ∧
    runTurn (.periph a) s = .next (periphStep a s)

/-- What PERIPH never does (R207): it changes SR and DR_RX and nothing else, in either environment; and RefEnv is one of
the behaviours FreeEnv admits (R202), each of its steps a sequence of FreeEnv steps. -/
def Obligations.PeriphChangesOnlySrAndDrRx : Prop :=
  ∀ (a : PeriphAct) (s : State), { periphStep a s with sr := s.sr, drRx := s.drRx } = s ∧
    ∃ acts : List PeriphAct, periphRef a s = acts.foldl (fun t b => periphFree b t) s

/-- The parameters are fixed for the run (R250). -/
def Obligations.ParametersNeverChange : Prop :=
  ∀ s t : State, step s = .next t → t.par = s.par

/-- The hand-off of the bus state (R81, R235): only HOST takes a direction from FREE to BUSY, only DISP from BUSY to
FREE, PERIPH neither. -/
def Obligations.BusStateHandOff : Prop :=
  ∀ (s t : State) (d : Dir) (a : PeriphAct),
    (hostMicro s = .next t → (s.desc d).state = .busy → (t.desc d).state = .busy) ∧
    ((s.desc d).state = .free → ((dispMicro s).desc d).state = .free) ∧
    ((periphStep a s).desc d = s.desc d)

/-- What the block itself does to SR and CR1: a micro-step of HOST or DISP leaves SR, or clears RXNE, or clears TXE
(R38, R40); CR1 is written by the last line of `INIT` only, no other line of any agent changes it (R37, R264). -/
def Obligations.BlockWritesToSrAndCr1 : Prop :=
  ∀ (s t : State) (a : PeriphAct),
    (hostMicro s = .next t ∨ dispMicro s = t → t.sr = s.sr ∨ t.sr = clrBit s.sr 0 ∨ t.sr = clrBit s.sr 1) ∧
    (hostMicro s = .next t → (∀ c, s.hph ≠ .init c .n1) → t.cr1 = s.cr1) ∧
    (dispMicro s).cr1 = s.cr1 ∧ (periphStep a s).cr1 = s.cr1

/-- The transmit log only grows, whatever the step (R43). -/
def Obligations.TxlogOnlyGrows : Prop :=
  ∀ s t : State, step s = .next t → s.txlog <+: t.txlog

/-- The two directions are independent (R31): no line of a step or close of one direction touches the other's
descriptor or span. -/
def Obligations.DirectionsIndependent : Prop :=
  ∀ s : State,
    (serving .tx s.dph = true → (dispMicro s).rx = s.rx ∧ (dispMicro s).rxSpan = s.rxSpan) ∧
    (serving .rx s.dph = true → (dispMicro s).tx = s.tx ∧ (dispMicro s).txSpan = s.txSpan)

/-- HOST's script and the two pseudo-operations of R111 (the script and its turns are the model's: log 22). A command of
the script is that command presented. `WAIT_FREE d` polls GET_STATE d, at each turn of HOST on its script, and leaves the
script with the answer FREE and not before; any turns may stand between the polls. Line by line the same. `TRANSFER` is
SUBMIT_RX, SUBMIT_TX, WAIT_FREE TX, WAIT_FREE RX. -/
def Obligations.ScriptRunsPseudoOperations : Prop :=
  (∀ (s : State) (w : CmdWord) (rest : List ScriptItem), s.hostMayBegin = true → s.script = .command w :: rest →
    runTurn .scriptOp s = runTurn (.hostOp w) { s with script := rest } ∧
    runTurn .scriptMicro s = runTurn (.hostStart w) { s with script := rest }) ∧
  (∀ (s : State) (d : Dir) (rest : List ScriptItem), s.hostMayBegin = true → s.script = .waitFree d :: rest →
    ((s.desc d).state = .free → runTurn .scriptOp s = .next { s with resp := some 0, script := rest }) ∧
    ((s.desc d).state = .busy → runTurn .scriptOp s = .next { s with resp := some 1 }) ∧
    runTurn .scriptMicro s = .next { s with hph := .getState d .g0 }) ∧
  (∀ (s : State) (d : Dir) (b : BusState) (rest : List ScriptItem), s.dph = .idle → s.hfault = none →
    s.hph = .getState d (.g1 b) → s.script = .waitFree d :: rest →
    runTurn .scriptMicro s = .next { s with
      hph := .idle, resp := some (respBusState b), script := if b = .free then rest else .waitFree d :: rest }) ∧
  (∀ s : State, s.hph ≠ .idle → (∀ d, s.hph ≠ .getState d (.g1 .free)) →
    runTurn .scriptMicro s = runTurn .hostMicro s) ∧
  (∀ (bufTx bufRx : Addr) (len : Len), ∃ r t : CmdWord,
    transferScript bufTx bufRx len = [.command r, .command t, .waitFree .tx, .waitFree .rx] ∧
    decode (.c r) = .ok (.submitRx bufRx len) ∧ decode (.c t) = .ok (.submitTx bufTx len))

/-- A whole host command is its lines run one after another (R10, R111): started, then micro-step by micro-step with no
other agent in between, it ends where exec says (turns and whole operations: logs 1, 3, 14). -/
def Obligations.WholeCommandIsItsLines : Prop :=
  ∀ (s t : State) (w : CmdWord) (i : Instr) (rest : List Turn), s.hostMayBegin = true → decode (.c w) = .ok i →
    exec i { s with sched := rest } = .next t →
    ∃ n, Host.Core.run Sys2Proof.core (n + 1)
      { s with sched := .hostStart w :: (List.replicate n .hostMicro ++ rest) } = .next t

/-- A whole dispatch is its lines run one after another (R10, R111, R231; turns and whole operations: logs 1, 3). -/
def Obligations.WholeDispatchIsItsLines : Prop :=
  ∀ (s t : State) (rest : List Turn), s.dispMayStart = true → exec .irqDispatch { s with sched := rest } = .next t →
    ∃ n, Host.Core.run Sys2Proof.core (n + 1)
      { s with sched := .dispStart :: (List.replicate n .dispMicro ++ rest) } = .next t

/-! ## Invariants of the whole machine -/

/-- R34 at micro-step grain, kept by every step, with the hazard of R258 or without it: a FREE descriptor is closed but
for the fields a submit in progress has written, a bound descriptor is BUSY, steps and closes run on a BUSY descriptor. -/
def Obligations.StepKeepsClosedInv : Prop :=
  ∀ s t : State, ClosedInv s → step s = .next t → ClosedInv t

/-- The reset state meets the invariants: memory in canonical form (log 8), R34 at micro-step grain, and, with
ATOMIC_HOST true, the arming invariant (R251). That CR2 is 0 at reset is the spec's general knowledge GK6 (log 9,
PRESUMED); for a launch whose CR2 is another's, R251 asks for the premise: with both enable bits 0 at launch, whatever
CR2 holds besides, the arming invariant holds. -/
def Obligations.ResetMeetsInvariants : Prop :=
  State.reset.mem.wf = true ∧ ClosedInv State.reset ∧
    ArmInv { State.reset with par := { Params.atReset with atomicHost := true } } ∧
    ∀ c2 : Half, c2.getLsbD 7 = false → c2.getLsbD 6 = false →
      ArmInv { State.reset with par := { Params.atReset with atomicHost := true }, cr2 := c2 }

/-- The arming invariant (R251) with ATOMIC_HOST true (R80, R258), kept by every step from every state that meets it:
an enable bit is 1 only while its direction is BUSY with a bound step, and no dispatch calls through a null or reserved
reference. -/
def Obligations.StepKeepsArmInv : Prop :=
  ∀ s t : State, ArmInv s → step s = .next t → ArmInv t

/-- The split read-modify-write of CR2 (R258, hazard H4): HOST at S7 of a `SUBMIT_TX` with a stale c2 that has RXNEIE
set re-arms a closed receive direction, and the next dispatch that finds RXNE (and not TXE) set calls through the null
reference. The mirror: `SUBMIT_RX` with a stale TXEIE re-arms a closed transmit direction, and the next dispatch that
finds TXE set calls through the null reference, whatever RXNE is. -/
def Obligations.StaleArmingReachesNullStep : Prop :=
  ∀ (s : State) (buf : Addr) (len : Len) (c2 : Half), s.dph = .idle → s.dfault = none →
    (s.hph = .submit .tx buf len (.s7 c2) → s.rx = Desc.closed → c2.getLsbD 6 = true → s.rxne = true → s.txe = false →
      ∃ t u, hostMicro s = .next t ∧ t.enabled .rx = true ∧ t.rx = Desc.closed ∧
        exec .irqDispatch t = .next u ∧ u.dfault = some (.nullStep .rx)) ∧
    (s.hph = .submit .rx buf len (.s7 c2) → s.tx = Desc.closed → c2.getLsbD 7 = true → s.txe = true →
      ∃ t u, hostMicro s = .next t ∧ t.enabled .tx = true ∧ t.tx = Desc.closed ∧
        exec .irqDispatch t = .next u ∧ u.dfault = some (.nullStep .tx))

/-- The launch state (R45, R250): closed descriptors, register values, both phases IDLE, logs and spans empty, no fault;
it is final, and both enable bits are 0 (R251). The register values are the spec's general knowledge GK6 (log 9). -/
def Obligations.ResetValues : Prop :=
  State.reset.tx = ⟨0, 0, .free, .none⟩ ∧ State.reset.rx = ⟨0, 0, .free, .none⟩ ∧
  State.reset.cr1 = 0x0000 ∧ State.reset.cr2 = 0x0000 ∧ State.reset.sr = 0x0002 ∧
  State.reset.drTx = 0x0000 ∧ State.reset.drRx = 0x0000 ∧
  State.reset.hph = .idle ∧ State.reset.dph = .idle ∧ State.reset.txlog = [] ∧ State.reset.resp = none ∧
  State.reset.txSpan = none ∧ State.reset.rxSpan = none ∧
  State.reset.hfault = none ∧ State.reset.dfault = none ∧
  State.reset.enabled .tx = false ∧ State.reset.enabled .rx = false ∧ State.reset.final = true

/-! ## Termination -/

/-- A valid transmit transfer ends after exactly len / w qualifying dispatches (R169): with PERIPH setting TXE before
each dispatch, after k of n the descriptor is BUSY and armed with count len - k w, and after the n-th it is closed and
disarmed, the log having gained the units of the span in address order; memory is as it was. The receive direction may
be armed, so long as no frame of it is there. The dispatches are turns of the schedule (log 1). -/
def Obligations.TransmitTerminates : Prop :=
  ∀ (s : State) (w : FrameWidth) (n k : Nat) (rest : List Turn),
    s.dispMayStart = true → s.enabled .tx = true → gateOpen .rx s.cr2 s.sr = false →
    s.tx.state = .busy → s.tx.sel = Sel.ofWidth w → 0 < n → s.tx.len.toNat = n * (unitBytes w).toNat →
    (∀ j < n, s.stepAccessFault .tx w (s.tx.cur + BitVec.ofNat 32 (j * (unitBytes w).toNat)) = none) → k ≤ n →
    ∃ t, Host.Core.run Sys2Proof.core (2 * k)
        { s with sched := (List.replicate k [Turn.periph (.txe true), Turn.dispOp]).flatten ++ rest } = .next t ∧
      t.dfault = none ∧ t.dph = .idle ∧ t.sched = rest ∧ t.mem = s.mem ∧ t.rx = s.rx ∧
      t.txlog = s.txlog ++ (List.range k).map (fun j =>
        logEntry w (s.readUnit w (s.tx.cur + BitVec.ofNat 32 (j * (unitBytes w).toNat)))) ∧
      (k < n → t.enabled .tx = true ∧
        t.tx = { s.tx with cur := s.tx.cur + BitVec.ofNat 32 (k * (unitBytes w).toNat),
                           len := s.tx.len - BitVec.ofNat 32 (k * (unitBytes w).toNat) }) ∧
      (k = n → t.enabled .tx = false ∧ t.tx = Desc.closed)

/-- A valid receive transfer ends after exactly len / w qualifying dispatches (R169): with PERIPH delivering a frame
before each, the descriptor is closed and disarmed after the last, the span holds the delivered frames in delivery
order, every other byte is as before. In either environment (RefEnv delivers while RXNE is 0); the transmit direction may
be armed, so long as TXE is 0. The dispatches are turns of the schedule (log 1). -/
def Obligations.ReceiveTerminates : Prop :=
  ∀ (s : State) (w : FrameWidth) (vs : List Half) (rest : List Turn),
    s.mem.wf = true → (s.par.env = .free ∨ s.rxne = false) →
    s.dispMayStart = true → s.enabled .rx = true → gateOpen .tx s.cr2 s.sr = false →
    s.rx.state = .busy → s.rx.sel = Sel.ofWidth w → vs ≠ [] → s.rx.len.toNat = vs.length * (unitBytes w).toNat →
    (∀ j < vs.length, s.stepAccessFault .rx w (s.rx.cur + BitVec.ofNat 32 (j * (unitBytes w).toNat)) = none) →
    ∃ t, Host.Core.run Sys2Proof.core (2 * vs.length)
        { s with sched := vs.flatMap (fun v => [Turn.periph (.rx v), Turn.dispOp]) ++ rest } = .next t ∧
      t.dfault = none ∧ t.dph = .idle ∧ t.sched = rest ∧ t.tx = s.tx ∧ t.txlog = s.txlog ∧
      t.enabled .rx = false ∧ t.rx = Desc.closed ∧
      (∀ j (h : j < vs.length),
        t.readUnit w (s.rx.cur + BitVec.ofNat 32 (j * (unitBytes w).toNat)) = frameZext w vs[j]) ∧
      (∀ a : Addr, s.rx.len.toNat ≤ (a - s.rx.cur).toNat → t.byteAt a = s.byteAt a)
end

