-- ==== Sys2Proof/Laws/Encode.lean ====
section
/-! SUPPORT. The fields of a command word, taken apart and put together (R101, R104). -/

namespace Sys2Proof

theorem opField_cmdWord (op : BitVec 8) (a b : BitVec 32) : opField (cmdWord op a b) = op := by
  apply BitVec.eq_of_getLsbD_eq
  intro i hi
  simp only [opField, cmdWord, BitVec.getLsbD_extractLsb', BitVec.getLsbD_append]
  simp [hi, show ¬ (64 + i < 32) by omega, show ¬ (64 + i - 32 < 32) by omega, show 64 + i - 32 - 32 = i by omega]

theorem aField_cmdWord (op : BitVec 8) (a b : BitVec 32) : aField (cmdWord op a b) = a := by
  apply BitVec.eq_of_getLsbD_eq
  intro i hi
  simp only [aField, cmdWord, BitVec.getLsbD_extractLsb', BitVec.getLsbD_append]
  simp [hi, show ¬ (32 + i < 32) by omega]

theorem bField_cmdWord (op : BitVec 8) (a b : BitVec 32) : bField (cmdWord op a b) = b := by
  apply BitVec.eq_of_getLsbD_eq
  intro i hi
  simp only [bField, cmdWord, BitVec.getLsbD_extractLsb', BitVec.getLsbD_append]
  simp [hi]

/-- A command word is its three fields. -/
theorem cmdWord_fields (w : CmdWord) : cmdWord (opField w) (aField w) (bField w) = w := by
  apply BitVec.eq_of_getLsbD_eq
  intro i hi
  simp only [opField, aField, bField, cmdWord, BitVec.getLsbD_extractLsb', BitVec.getLsbD_append]
  by_cases h1 : i < 32
  · simp [h1]
  · by_cases h2 : i < 64
    · simp [h1, show i - 32 < 32 by omega, show 32 + (i - 32) = i by omega]
    · simp [h1, show ¬ (i - 32 < 32) by omega, show i - 32 - 32 < 8 by omega, show 64 + (i - 32 - 32) = i by omega]

end Sys2Proof
end

