-- ==== Sys2Proof/Laws/State.lean ====
section
/-! SUPPORT. One lemma per field per update of State: what each named update leaves and what it sets. -/

namespace Sys2Proof.Machine

open Sys2Proof

/-! ### setDesc -/

@[simp] theorem State.setDesc_par (s : State) (d : Dir) (x : Desc) : (s.setDesc d x).par = s.par := by cases d <;> rfl
@[simp] theorem State.setDesc_cfg (s : State) (d : Dir) (x : Desc) : (s.setDesc d x).cfg = s.cfg := by cases d <;> rfl
@[simp] theorem State.setDesc_cr1 (s : State) (d : Dir) (x : Desc) : (s.setDesc d x).cr1 = s.cr1 := by cases d <;> rfl
@[simp] theorem State.setDesc_cr2 (s : State) (d : Dir) (x : Desc) : (s.setDesc d x).cr2 = s.cr2 := by cases d <;> rfl
@[simp] theorem State.setDesc_sr (s : State) (d : Dir) (x : Desc) : (s.setDesc d x).sr = s.sr := by cases d <;> rfl
@[simp] theorem State.setDesc_drTx (s : State) (d : Dir) (x : Desc) : (s.setDesc d x).drTx = s.drTx := by cases d <;> rfl
@[simp] theorem State.setDesc_drRx (s : State) (d : Dir) (x : Desc) : (s.setDesc d x).drRx = s.drRx := by cases d <;> rfl
@[simp] theorem State.setDesc_mem (s : State) (d : Dir) (x : Desc) : (s.setDesc d x).mem = s.mem := by cases d <;> rfl
@[simp] theorem State.setDesc_hph (s : State) (d : Dir) (x : Desc) : (s.setDesc d x).hph = s.hph := by cases d <;> rfl
@[simp] theorem State.setDesc_dph (s : State) (d : Dir) (x : Desc) : (s.setDesc d x).dph = s.dph := by cases d <;> rfl
@[simp] theorem State.setDesc_txlog (s : State) (d : Dir) (x : Desc) : (s.setDesc d x).txlog = s.txlog := by cases d <;> rfl
@[simp] theorem State.setDesc_resp (s : State) (d : Dir) (x : Desc) : (s.setDesc d x).resp = s.resp := by cases d <;> rfl
@[simp] theorem State.setDesc_txSpan (s : State) (d : Dir) (x : Desc) : (s.setDesc d x).txSpan = s.txSpan := by cases d <;> rfl
@[simp] theorem State.setDesc_rxSpan (s : State) (d : Dir) (x : Desc) : (s.setDesc d x).rxSpan = s.rxSpan := by cases d <;> rfl
@[simp] theorem State.setDesc_hfault (s : State) (d : Dir) (x : Desc) : (s.setDesc d x).hfault = s.hfault := by cases d <;> rfl
@[simp] theorem State.setDesc_dfault (s : State) (d : Dir) (x : Desc) : (s.setDesc d x).dfault = s.dfault := by cases d <;> rfl
@[simp] theorem State.setDesc_script (s : State) (d : Dir) (x : Desc) : (s.setDesc d x).script = s.script := by cases d <;> rfl
@[simp] theorem State.setDesc_sched (s : State) (d : Dir) (x : Desc) : (s.setDesc d x).sched = s.sched := by cases d <;> rfl
@[simp] theorem State.setDesc_tick (s : State) (d : Dir) (x : Desc) : (s.setDesc d x).tick = s.tick := by cases d <;> rfl

@[simp] theorem State.setDesc_tx_tx (s : State) (x : Desc) : (s.setDesc .tx x).tx = x := rfl
@[simp] theorem State.setDesc_tx_rx (s : State) (x : Desc) : (s.setDesc .tx x).rx = s.rx := rfl
@[simp] theorem State.setDesc_rx_tx (s : State) (x : Desc) : (s.setDesc .rx x).tx = s.tx := rfl
@[simp] theorem State.setDesc_rx_rx (s : State) (x : Desc) : (s.setDesc .rx x).rx = x := rfl
@[simp] theorem State.desc_tx (s : State) : s.desc .tx = s.tx := rfl
@[simp] theorem State.desc_rx (s : State) : s.desc .rx = s.rx := rfl
@[simp] theorem State.desc_setDesc (s : State) (d : Dir) (x : Desc) : (s.setDesc d x).desc d = x := by cases d <;> rfl
theorem State.desc_setDesc_ne (s : State) {d e : Dir} (x : Desc) (h : e ≠ d) : (s.setDesc d x).desc e = s.desc e := by
  cases d <;> cases e <;> first | rfl | exact absurd rfl h

/-! ### setSpan -/

@[simp] theorem State.setSpan_par (s : State) (d : Dir) (x : Option Span) : (s.setSpan d x).par = s.par := by cases d <;> rfl
@[simp] theorem State.setSpan_tx (s : State) (d : Dir) (x : Option Span) : (s.setSpan d x).tx = s.tx := by cases d <;> rfl
@[simp] theorem State.setSpan_rx (s : State) (d : Dir) (x : Option Span) : (s.setSpan d x).rx = s.rx := by cases d <;> rfl
@[simp] theorem State.setSpan_cfg (s : State) (d : Dir) (x : Option Span) : (s.setSpan d x).cfg = s.cfg := by cases d <;> rfl
@[simp] theorem State.setSpan_cr1 (s : State) (d : Dir) (x : Option Span) : (s.setSpan d x).cr1 = s.cr1 := by cases d <;> rfl
@[simp] theorem State.setSpan_cr2 (s : State) (d : Dir) (x : Option Span) : (s.setSpan d x).cr2 = s.cr2 := by cases d <;> rfl
@[simp] theorem State.setSpan_sr (s : State) (d : Dir) (x : Option Span) : (s.setSpan d x).sr = s.sr := by cases d <;> rfl
@[simp] theorem State.setSpan_drTx (s : State) (d : Dir) (x : Option Span) : (s.setSpan d x).drTx = s.drTx := by cases d <;> rfl
@[simp] theorem State.setSpan_drRx (s : State) (d : Dir) (x : Option Span) : (s.setSpan d x).drRx = s.drRx := by cases d <;> rfl
@[simp] theorem State.setSpan_mem (s : State) (d : Dir) (x : Option Span) : (s.setSpan d x).mem = s.mem := by cases d <;> rfl
@[simp] theorem State.setSpan_hph (s : State) (d : Dir) (x : Option Span) : (s.setSpan d x).hph = s.hph := by cases d <;> rfl
@[simp] theorem State.setSpan_dph (s : State) (d : Dir) (x : Option Span) : (s.setSpan d x).dph = s.dph := by cases d <;> rfl
@[simp] theorem State.setSpan_txlog (s : State) (d : Dir) (x : Option Span) : (s.setSpan d x).txlog = s.txlog := by cases d <;> rfl
@[simp] theorem State.setSpan_resp (s : State) (d : Dir) (x : Option Span) : (s.setSpan d x).resp = s.resp := by cases d <;> rfl
@[simp] theorem State.setSpan_hfault (s : State) (d : Dir) (x : Option Span) : (s.setSpan d x).hfault = s.hfault := by cases d <;> rfl
@[simp] theorem State.setSpan_dfault (s : State) (d : Dir) (x : Option Span) : (s.setSpan d x).dfault = s.dfault := by cases d <;> rfl
@[simp] theorem State.setSpan_script (s : State) (d : Dir) (x : Option Span) : (s.setSpan d x).script = s.script := by cases d <;> rfl
@[simp] theorem State.setSpan_sched (s : State) (d : Dir) (x : Option Span) : (s.setSpan d x).sched = s.sched := by cases d <;> rfl
@[simp] theorem State.setSpan_tick (s : State) (d : Dir) (x : Option Span) : (s.setSpan d x).tick = s.tick := by cases d <;> rfl

@[simp] theorem State.setSpan_tx_txSpan (s : State) (x : Option Span) : (s.setSpan .tx x).txSpan = x := rfl
@[simp] theorem State.setSpan_tx_rxSpan (s : State) (x : Option Span) : (s.setSpan .tx x).rxSpan = s.rxSpan := rfl
@[simp] theorem State.setSpan_rx_txSpan (s : State) (x : Option Span) : (s.setSpan .rx x).txSpan = s.txSpan := rfl
@[simp] theorem State.setSpan_rx_rxSpan (s : State) (x : Option Span) : (s.setSpan .rx x).rxSpan = x := rfl
@[simp] theorem State.desc_setSpan (s : State) (d e : Dir) (x : Option Span) : (s.setSpan d x).desc e = s.desc e := by
  cases d <;> rfl
@[simp] theorem State.enabled_setDesc (s : State) (d e : Dir) (x : Desc) : (s.setDesc d x).enabled e = s.enabled e := by
  cases d <;> rfl
@[simp] theorem State.enabled_setSpan (s : State) (d e : Dir) (x : Option Span) : (s.setSpan d x).enabled e = s.enabled e := by
  cases d <;> rfl

/-! ### regWrite -/

@[simp] theorem State.regWrite_par (s : State) (r : WReg) (v : Half) : (s.regWrite r v).par = s.par := by cases r <;> rfl
@[simp] theorem State.regWrite_tx (s : State) (r : WReg) (v : Half) : (s.regWrite r v).tx = s.tx := by cases r <;> rfl
@[simp] theorem State.regWrite_rx (s : State) (r : WReg) (v : Half) : (s.regWrite r v).rx = s.rx := by cases r <;> rfl
@[simp] theorem State.regWrite_cfg (s : State) (r : WReg) (v : Half) : (s.regWrite r v).cfg = s.cfg := by cases r <;> rfl
@[simp] theorem State.regWrite_sr (s : State) (r : WReg) (v : Half) : (s.regWrite r v).sr = s.sr := by cases r <;> rfl
@[simp] theorem State.regWrite_drTx (s : State) (r : WReg) (v : Half) : (s.regWrite r v).drTx = s.drTx := by cases r <;> rfl
@[simp] theorem State.regWrite_drRx (s : State) (r : WReg) (v : Half) : (s.regWrite r v).drRx = s.drRx := by cases r <;> rfl
@[simp] theorem State.regWrite_mem (s : State) (r : WReg) (v : Half) : (s.regWrite r v).mem = s.mem := by cases r <;> rfl
@[simp] theorem State.regWrite_hph (s : State) (r : WReg) (v : Half) : (s.regWrite r v).hph = s.hph := by cases r <;> rfl
@[simp] theorem State.regWrite_dph (s : State) (r : WReg) (v : Half) : (s.regWrite r v).dph = s.dph := by cases r <;> rfl
@[simp] theorem State.regWrite_txlog (s : State) (r : WReg) (v : Half) : (s.regWrite r v).txlog = s.txlog := by cases r <;> rfl
@[simp] theorem State.regWrite_resp (s : State) (r : WReg) (v : Half) : (s.regWrite r v).resp = s.resp := by cases r <;> rfl
@[simp] theorem State.regWrite_txSpan (s : State) (r : WReg) (v : Half) : (s.regWrite r v).txSpan = s.txSpan := by cases r <;> rfl
@[simp] theorem State.regWrite_rxSpan (s : State) (r : WReg) (v : Half) : (s.regWrite r v).rxSpan = s.rxSpan := by cases r <;> rfl
@[simp] theorem State.regWrite_hfault (s : State) (r : WReg) (v : Half) : (s.regWrite r v).hfault = s.hfault := by cases r <;> rfl
@[simp] theorem State.regWrite_dfault (s : State) (r : WReg) (v : Half) : (s.regWrite r v).dfault = s.dfault := by cases r <;> rfl
@[simp] theorem State.regWrite_script (s : State) (r : WReg) (v : Half) : (s.regWrite r v).script = s.script := by cases r <;> rfl
@[simp] theorem State.regWrite_sched (s : State) (r : WReg) (v : Half) : (s.regWrite r v).sched = s.sched := by cases r <;> rfl
@[simp] theorem State.regWrite_tick (s : State) (r : WReg) (v : Half) : (s.regWrite r v).tick = s.tick := by cases r <;> rfl

@[simp] theorem State.regWrite_cr1_cr1 (s : State) (v : Half) : (s.regWrite .cr1 v).cr1 = v := rfl
@[simp] theorem State.regWrite_cr1_cr2 (s : State) (v : Half) : (s.regWrite .cr1 v).cr2 = s.cr2 := rfl
@[simp] theorem State.regWrite_cr2_cr1 (s : State) (v : Half) : (s.regWrite .cr2 v).cr1 = s.cr1 := rfl
@[simp] theorem State.regWrite_cr2_cr2 (s : State) (v : Half) : (s.regWrite .cr2 v).cr2 = v := rfl
@[simp] theorem State.desc_regWrite (s : State) (r : WReg) (v : Half) (d : Dir) : (s.regWrite r v).desc d = s.desc d := by
  cases r <;> rfl
@[simp] theorem State.regRead_regWrite (s : State) (r : WReg) (v : Half) : (s.regWrite r v).regRead r.reg = v := by
  cases r <;> rfl
@[simp] theorem State.regRead_cr1 (s : State) : s.regRead .cr1 = s.cr1 := rfl
@[simp] theorem State.regRead_cr2 (s : State) : s.regRead .cr2 = s.cr2 := rfl
@[simp] theorem State.regRead_sr (s : State) : s.regRead .sr = s.sr := rfl

/-! ### respond -/

@[simp] theorem State.respond_par (s : State) (v : RespCode) : (s.respond v).par = s.par := rfl
@[simp] theorem State.respond_tx (s : State) (v : RespCode) : (s.respond v).tx = s.tx := rfl
@[simp] theorem State.respond_rx (s : State) (v : RespCode) : (s.respond v).rx = s.rx := rfl
@[simp] theorem State.respond_cfg (s : State) (v : RespCode) : (s.respond v).cfg = s.cfg := rfl
@[simp] theorem State.respond_cr1 (s : State) (v : RespCode) : (s.respond v).cr1 = s.cr1 := rfl
@[simp] theorem State.respond_cr2 (s : State) (v : RespCode) : (s.respond v).cr2 = s.cr2 := rfl
@[simp] theorem State.respond_sr (s : State) (v : RespCode) : (s.respond v).sr = s.sr := rfl
@[simp] theorem State.respond_drTx (s : State) (v : RespCode) : (s.respond v).drTx = s.drTx := rfl
@[simp] theorem State.respond_drRx (s : State) (v : RespCode) : (s.respond v).drRx = s.drRx := rfl
@[simp] theorem State.respond_mem (s : State) (v : RespCode) : (s.respond v).mem = s.mem := rfl
@[simp] theorem State.respond_hph (s : State) (v : RespCode) : (s.respond v).hph = .idle := rfl
@[simp] theorem State.respond_dph (s : State) (v : RespCode) : (s.respond v).dph = s.dph := rfl
@[simp] theorem State.respond_txlog (s : State) (v : RespCode) : (s.respond v).txlog = s.txlog := rfl
@[simp] theorem State.respond_resp (s : State) (v : RespCode) : (s.respond v).resp = some v := rfl
@[simp] theorem State.respond_txSpan (s : State) (v : RespCode) : (s.respond v).txSpan = s.txSpan := rfl
@[simp] theorem State.respond_rxSpan (s : State) (v : RespCode) : (s.respond v).rxSpan = s.rxSpan := rfl
@[simp] theorem State.respond_hfault (s : State) (v : RespCode) : (s.respond v).hfault = s.hfault := rfl
@[simp] theorem State.respond_dfault (s : State) (v : RespCode) : (s.respond v).dfault = s.dfault := rfl
@[simp] theorem State.respond_script (s : State) (v : RespCode) : (s.respond v).script = s.script := rfl
@[simp] theorem State.respond_sched (s : State) (v : RespCode) : (s.respond v).sched = s.sched := rfl
@[simp] theorem State.respond_tick (s : State) (v : RespCode) : (s.respond v).tick = s.tick := rfl

/-! ### drReadEffect -/

@[simp] theorem State.drReadEffect_par (s : State)  : (s.drReadEffect).par = s.par := rfl
@[simp] theorem State.drReadEffect_tx (s : State)  : (s.drReadEffect).tx = s.tx := rfl
@[simp] theorem State.drReadEffect_rx (s : State)  : (s.drReadEffect).rx = s.rx := rfl
@[simp] theorem State.drReadEffect_cfg (s : State)  : (s.drReadEffect).cfg = s.cfg := rfl
@[simp] theorem State.drReadEffect_cr1 (s : State)  : (s.drReadEffect).cr1 = s.cr1 := rfl
@[simp] theorem State.drReadEffect_cr2 (s : State)  : (s.drReadEffect).cr2 = s.cr2 := rfl
@[simp] theorem State.drReadEffect_sr (s : State)  : (s.drReadEffect).sr = clrBit s.sr Config.bitRxne := rfl
@[simp] theorem State.drReadEffect_drTx (s : State)  : (s.drReadEffect).drTx = s.drTx := rfl
@[simp] theorem State.drReadEffect_drRx (s : State)  : (s.drReadEffect).drRx = s.drRx := rfl
@[simp] theorem State.drReadEffect_mem (s : State)  : (s.drReadEffect).mem = s.mem := rfl
@[simp] theorem State.drReadEffect_hph (s : State)  : (s.drReadEffect).hph = s.hph := rfl
@[simp] theorem State.drReadEffect_dph (s : State)  : (s.drReadEffect).dph = s.dph := rfl
@[simp] theorem State.drReadEffect_txlog (s : State)  : (s.drReadEffect).txlog = s.txlog := rfl
@[simp] theorem State.drReadEffect_resp (s : State)  : (s.drReadEffect).resp = s.resp := rfl
@[simp] theorem State.drReadEffect_txSpan (s : State)  : (s.drReadEffect).txSpan = s.txSpan := rfl
@[simp] theorem State.drReadEffect_rxSpan (s : State)  : (s.drReadEffect).rxSpan = s.rxSpan := rfl
@[simp] theorem State.drReadEffect_hfault (s : State)  : (s.drReadEffect).hfault = s.hfault := rfl
@[simp] theorem State.drReadEffect_dfault (s : State)  : (s.drReadEffect).dfault = s.dfault := rfl
@[simp] theorem State.drReadEffect_script (s : State)  : (s.drReadEffect).script = s.script := rfl
@[simp] theorem State.drReadEffect_sched (s : State)  : (s.drReadEffect).sched = s.sched := rfl
@[simp] theorem State.drReadEffect_tick (s : State)  : (s.drReadEffect).tick = s.tick := rfl

/-! ### drWr -/

@[simp] theorem State.drWr_par (s : State) (w : FrameWidth) (v : Half) : (s.drWr w v).par = s.par := rfl
@[simp] theorem State.drWr_tx (s : State) (w : FrameWidth) (v : Half) : (s.drWr w v).tx = s.tx := rfl
@[simp] theorem State.drWr_rx (s : State) (w : FrameWidth) (v : Half) : (s.drWr w v).rx = s.rx := rfl
@[simp] theorem State.drWr_cfg (s : State) (w : FrameWidth) (v : Half) : (s.drWr w v).cfg = s.cfg := rfl
@[simp] theorem State.drWr_cr1 (s : State) (w : FrameWidth) (v : Half) : (s.drWr w v).cr1 = s.cr1 := rfl
@[simp] theorem State.drWr_cr2 (s : State) (w : FrameWidth) (v : Half) : (s.drWr w v).cr2 = s.cr2 := rfl
@[simp] theorem State.drWr_sr (s : State) (w : FrameWidth) (v : Half) : (s.drWr w v).sr = clrBit s.sr Config.bitTxe := rfl
@[simp] theorem State.drWr_drTx (s : State) (w : FrameWidth) (v : Half) : (s.drWr w v).drTx = frameZext w v := rfl
@[simp] theorem State.drWr_drRx (s : State) (w : FrameWidth) (v : Half) : (s.drWr w v).drRx = s.drRx := rfl
@[simp] theorem State.drWr_mem (s : State) (w : FrameWidth) (v : Half) : (s.drWr w v).mem = s.mem := rfl
@[simp] theorem State.drWr_hph (s : State) (w : FrameWidth) (v : Half) : (s.drWr w v).hph = s.hph := rfl
@[simp] theorem State.drWr_dph (s : State) (w : FrameWidth) (v : Half) : (s.drWr w v).dph = s.dph := rfl
@[simp] theorem State.drWr_txlog (s : State) (w : FrameWidth) (v : Half) : (s.drWr w v).txlog = s.txlog ++ [logEntry w v] := rfl
@[simp] theorem State.drWr_resp (s : State) (w : FrameWidth) (v : Half) : (s.drWr w v).resp = s.resp := rfl
@[simp] theorem State.drWr_txSpan (s : State) (w : FrameWidth) (v : Half) : (s.drWr w v).txSpan = s.txSpan := rfl
@[simp] theorem State.drWr_rxSpan (s : State) (w : FrameWidth) (v : Half) : (s.drWr w v).rxSpan = s.rxSpan := rfl
@[simp] theorem State.drWr_hfault (s : State) (w : FrameWidth) (v : Half) : (s.drWr w v).hfault = s.hfault := rfl
@[simp] theorem State.drWr_dfault (s : State) (w : FrameWidth) (v : Half) : (s.drWr w v).dfault = s.dfault := rfl
@[simp] theorem State.drWr_script (s : State) (w : FrameWidth) (v : Half) : (s.drWr w v).script = s.script := rfl
@[simp] theorem State.drWr_sched (s : State) (w : FrameWidth) (v : Half) : (s.drWr w v).sched = s.sched := rfl
@[simp] theorem State.drWr_tick (s : State) (w : FrameWidth) (v : Half) : (s.drWr w v).tick = s.tick := rfl

/-! ### putByte -/

@[simp] theorem State.putByte_par (s : State) (a : Addr) (v : Byte) : (s.putByte a v).par = s.par := rfl
@[simp] theorem State.putByte_tx (s : State) (a : Addr) (v : Byte) : (s.putByte a v).tx = s.tx := rfl
@[simp] theorem State.putByte_rx (s : State) (a : Addr) (v : Byte) : (s.putByte a v).rx = s.rx := rfl
@[simp] theorem State.putByte_cfg (s : State) (a : Addr) (v : Byte) : (s.putByte a v).cfg = s.cfg := rfl
@[simp] theorem State.putByte_cr1 (s : State) (a : Addr) (v : Byte) : (s.putByte a v).cr1 = s.cr1 := rfl
@[simp] theorem State.putByte_cr2 (s : State) (a : Addr) (v : Byte) : (s.putByte a v).cr2 = s.cr2 := rfl
@[simp] theorem State.putByte_sr (s : State) (a : Addr) (v : Byte) : (s.putByte a v).sr = s.sr := rfl
@[simp] theorem State.putByte_drTx (s : State) (a : Addr) (v : Byte) : (s.putByte a v).drTx = s.drTx := rfl
@[simp] theorem State.putByte_drRx (s : State) (a : Addr) (v : Byte) : (s.putByte a v).drRx = s.drRx := rfl
@[simp] theorem State.putByte_mem (s : State) (a : Addr) (v : Byte) : (s.putByte a v).mem = s.mem.write a.toNat v := rfl
@[simp] theorem State.putByte_hph (s : State) (a : Addr) (v : Byte) : (s.putByte a v).hph = s.hph := rfl
@[simp] theorem State.putByte_dph (s : State) (a : Addr) (v : Byte) : (s.putByte a v).dph = s.dph := rfl
@[simp] theorem State.putByte_txlog (s : State) (a : Addr) (v : Byte) : (s.putByte a v).txlog = s.txlog := rfl
@[simp] theorem State.putByte_resp (s : State) (a : Addr) (v : Byte) : (s.putByte a v).resp = s.resp := rfl
@[simp] theorem State.putByte_txSpan (s : State) (a : Addr) (v : Byte) : (s.putByte a v).txSpan = s.txSpan := rfl
@[simp] theorem State.putByte_rxSpan (s : State) (a : Addr) (v : Byte) : (s.putByte a v).rxSpan = s.rxSpan := rfl
@[simp] theorem State.putByte_hfault (s : State) (a : Addr) (v : Byte) : (s.putByte a v).hfault = s.hfault := rfl
@[simp] theorem State.putByte_dfault (s : State) (a : Addr) (v : Byte) : (s.putByte a v).dfault = s.dfault := rfl
@[simp] theorem State.putByte_script (s : State) (a : Addr) (v : Byte) : (s.putByte a v).script = s.script := rfl
@[simp] theorem State.putByte_sched (s : State) (a : Addr) (v : Byte) : (s.putByte a v).sched = s.sched := rfl
@[simp] theorem State.putByte_tick (s : State) (a : Addr) (v : Byte) : (s.putByte a v).tick = s.tick := rfl

/-! ### writeUnit -/

@[simp] theorem State.writeUnit_par (s : State) (w : FrameWidth) (a : Addr) (v : Half) : (s.writeUnit w a v).par = s.par := by cases w <;> rfl
@[simp] theorem State.writeUnit_tx (s : State) (w : FrameWidth) (a : Addr) (v : Half) : (s.writeUnit w a v).tx = s.tx := by cases w <;> rfl
@[simp] theorem State.writeUnit_rx (s : State) (w : FrameWidth) (a : Addr) (v : Half) : (s.writeUnit w a v).rx = s.rx := by cases w <;> rfl
@[simp] theorem State.writeUnit_cfg (s : State) (w : FrameWidth) (a : Addr) (v : Half) : (s.writeUnit w a v).cfg = s.cfg := by cases w <;> rfl
@[simp] theorem State.writeUnit_cr1 (s : State) (w : FrameWidth) (a : Addr) (v : Half) : (s.writeUnit w a v).cr1 = s.cr1 := by cases w <;> rfl
@[simp] theorem State.writeUnit_cr2 (s : State) (w : FrameWidth) (a : Addr) (v : Half) : (s.writeUnit w a v).cr2 = s.cr2 := by cases w <;> rfl
@[simp] theorem State.writeUnit_sr (s : State) (w : FrameWidth) (a : Addr) (v : Half) : (s.writeUnit w a v).sr = s.sr := by cases w <;> rfl
@[simp] theorem State.writeUnit_drTx (s : State) (w : FrameWidth) (a : Addr) (v : Half) : (s.writeUnit w a v).drTx = s.drTx := by cases w <;> rfl
@[simp] theorem State.writeUnit_drRx (s : State) (w : FrameWidth) (a : Addr) (v : Half) : (s.writeUnit w a v).drRx = s.drRx := by cases w <;> rfl
@[simp] theorem State.writeUnit_hph (s : State) (w : FrameWidth) (a : Addr) (v : Half) : (s.writeUnit w a v).hph = s.hph := by cases w <;> rfl
@[simp] theorem State.writeUnit_dph (s : State) (w : FrameWidth) (a : Addr) (v : Half) : (s.writeUnit w a v).dph = s.dph := by cases w <;> rfl
@[simp] theorem State.writeUnit_txlog (s : State) (w : FrameWidth) (a : Addr) (v : Half) : (s.writeUnit w a v).txlog = s.txlog := by cases w <;> rfl
@[simp] theorem State.writeUnit_resp (s : State) (w : FrameWidth) (a : Addr) (v : Half) : (s.writeUnit w a v).resp = s.resp := by cases w <;> rfl
@[simp] theorem State.writeUnit_txSpan (s : State) (w : FrameWidth) (a : Addr) (v : Half) : (s.writeUnit w a v).txSpan = s.txSpan := by cases w <;> rfl
@[simp] theorem State.writeUnit_rxSpan (s : State) (w : FrameWidth) (a : Addr) (v : Half) : (s.writeUnit w a v).rxSpan = s.rxSpan := by cases w <;> rfl
@[simp] theorem State.writeUnit_hfault (s : State) (w : FrameWidth) (a : Addr) (v : Half) : (s.writeUnit w a v).hfault = s.hfault := by cases w <;> rfl
@[simp] theorem State.writeUnit_dfault (s : State) (w : FrameWidth) (a : Addr) (v : Half) : (s.writeUnit w a v).dfault = s.dfault := by cases w <;> rfl
@[simp] theorem State.writeUnit_script (s : State) (w : FrameWidth) (a : Addr) (v : Half) : (s.writeUnit w a v).script = s.script := by cases w <;> rfl
@[simp] theorem State.writeUnit_sched (s : State) (w : FrameWidth) (a : Addr) (v : Half) : (s.writeUnit w a v).sched = s.sched := by cases w <;> rfl
@[simp] theorem State.writeUnit_tick (s : State) (w : FrameWidth) (a : Addr) (v : Half) : (s.writeUnit w a v).tick = s.tick := by cases w <;> rfl

/-! ### deliver -/

@[simp] theorem State.deliver_par (s : State) (v : Half) : (s.deliver v).par = s.par := rfl
@[simp] theorem State.deliver_tx (s : State) (v : Half) : (s.deliver v).tx = s.tx := rfl
@[simp] theorem State.deliver_rx (s : State) (v : Half) : (s.deliver v).rx = s.rx := rfl
@[simp] theorem State.deliver_cfg (s : State) (v : Half) : (s.deliver v).cfg = s.cfg := rfl
@[simp] theorem State.deliver_cr1 (s : State) (v : Half) : (s.deliver v).cr1 = s.cr1 := rfl
@[simp] theorem State.deliver_cr2 (s : State) (v : Half) : (s.deliver v).cr2 = s.cr2 := rfl
@[simp] theorem State.deliver_sr (s : State) (v : Half) : (s.deliver v).sr = setBit s.sr Config.bitRxne := rfl
@[simp] theorem State.deliver_drTx (s : State) (v : Half) : (s.deliver v).drTx = s.drTx := rfl
@[simp] theorem State.deliver_drRx (s : State) (v : Half) : (s.deliver v).drRx = v := rfl
@[simp] theorem State.deliver_mem (s : State) (v : Half) : (s.deliver v).mem = s.mem := rfl
@[simp] theorem State.deliver_hph (s : State) (v : Half) : (s.deliver v).hph = s.hph := rfl
@[simp] theorem State.deliver_dph (s : State) (v : Half) : (s.deliver v).dph = s.dph := rfl
@[simp] theorem State.deliver_txlog (s : State) (v : Half) : (s.deliver v).txlog = s.txlog := rfl
@[simp] theorem State.deliver_resp (s : State) (v : Half) : (s.deliver v).resp = s.resp := rfl
@[simp] theorem State.deliver_txSpan (s : State) (v : Half) : (s.deliver v).txSpan = s.txSpan := rfl
@[simp] theorem State.deliver_rxSpan (s : State) (v : Half) : (s.deliver v).rxSpan = s.rxSpan := rfl
@[simp] theorem State.deliver_hfault (s : State) (v : Half) : (s.deliver v).hfault = s.hfault := rfl
@[simp] theorem State.deliver_dfault (s : State) (v : Half) : (s.deliver v).dfault = s.dfault := rfl
@[simp] theorem State.deliver_script (s : State) (v : Half) : (s.deliver v).script = s.script := rfl
@[simp] theorem State.deliver_sched (s : State) (v : Half) : (s.deliver v).sched = s.sched := rfl
@[simp] theorem State.deliver_tick (s : State) (v : Half) : (s.deliver v).tick = s.tick := rfl

/-! ### atSubmit -/

@[simp] theorem State.atSubmit_par (s : State) (d : Dir) (buf : Addr) (len : Len) (ln : SubmitLine) : (s.atSubmit d buf len ln).par = s.par := rfl
@[simp] theorem State.atSubmit_tx (s : State) (d : Dir) (buf : Addr) (len : Len) (ln : SubmitLine) : (s.atSubmit d buf len ln).tx = s.tx := rfl
@[simp] theorem State.atSubmit_rx (s : State) (d : Dir) (buf : Addr) (len : Len) (ln : SubmitLine) : (s.atSubmit d buf len ln).rx = s.rx := rfl
@[simp] theorem State.atSubmit_cfg (s : State) (d : Dir) (buf : Addr) (len : Len) (ln : SubmitLine) : (s.atSubmit d buf len ln).cfg = s.cfg := rfl
@[simp] theorem State.atSubmit_cr1 (s : State) (d : Dir) (buf : Addr) (len : Len) (ln : SubmitLine) : (s.atSubmit d buf len ln).cr1 = s.cr1 := rfl
@[simp] theorem State.atSubmit_cr2 (s : State) (d : Dir) (buf : Addr) (len : Len) (ln : SubmitLine) : (s.atSubmit d buf len ln).cr2 = s.cr2 := rfl
@[simp] theorem State.atSubmit_sr (s : State) (d : Dir) (buf : Addr) (len : Len) (ln : SubmitLine) : (s.atSubmit d buf len ln).sr = s.sr := rfl
@[simp] theorem State.atSubmit_drTx (s : State) (d : Dir) (buf : Addr) (len : Len) (ln : SubmitLine) : (s.atSubmit d buf len ln).drTx = s.drTx := rfl
@[simp] theorem State.atSubmit_drRx (s : State) (d : Dir) (buf : Addr) (len : Len) (ln : SubmitLine) : (s.atSubmit d buf len ln).drRx = s.drRx := rfl
@[simp] theorem State.atSubmit_mem (s : State) (d : Dir) (buf : Addr) (len : Len) (ln : SubmitLine) : (s.atSubmit d buf len ln).mem = s.mem := rfl
@[simp] theorem State.atSubmit_hph (s : State) (d : Dir) (buf : Addr) (len : Len) (ln : SubmitLine) : (s.atSubmit d buf len ln).hph = .submit d buf len ln := rfl
@[simp] theorem State.atSubmit_dph (s : State) (d : Dir) (buf : Addr) (len : Len) (ln : SubmitLine) : (s.atSubmit d buf len ln).dph = s.dph := rfl
@[simp] theorem State.atSubmit_txlog (s : State) (d : Dir) (buf : Addr) (len : Len) (ln : SubmitLine) : (s.atSubmit d buf len ln).txlog = s.txlog := rfl
@[simp] theorem State.atSubmit_resp (s : State) (d : Dir) (buf : Addr) (len : Len) (ln : SubmitLine) : (s.atSubmit d buf len ln).resp = s.resp := rfl
@[simp] theorem State.atSubmit_txSpan (s : State) (d : Dir) (buf : Addr) (len : Len) (ln : SubmitLine) : (s.atSubmit d buf len ln).txSpan = s.txSpan := rfl
@[simp] theorem State.atSubmit_rxSpan (s : State) (d : Dir) (buf : Addr) (len : Len) (ln : SubmitLine) : (s.atSubmit d buf len ln).rxSpan = s.rxSpan := rfl
@[simp] theorem State.atSubmit_hfault (s : State) (d : Dir) (buf : Addr) (len : Len) (ln : SubmitLine) : (s.atSubmit d buf len ln).hfault = s.hfault := rfl
@[simp] theorem State.atSubmit_dfault (s : State) (d : Dir) (buf : Addr) (len : Len) (ln : SubmitLine) : (s.atSubmit d buf len ln).dfault = s.dfault := rfl
@[simp] theorem State.atSubmit_script (s : State) (d : Dir) (buf : Addr) (len : Len) (ln : SubmitLine) : (s.atSubmit d buf len ln).script = s.script := rfl
@[simp] theorem State.atSubmit_sched (s : State) (d : Dir) (buf : Addr) (len : Len) (ln : SubmitLine) : (s.atSubmit d buf len ln).sched = s.sched := rfl
@[simp] theorem State.atSubmit_tick (s : State) (d : Dir) (buf : Addr) (len : Len) (ln : SubmitLine) : (s.atSubmit d buf len ln).tick = s.tick := rfl

/-! ### atBlk -/

@[simp] theorem State.atBlk_par (s : State) (d : Dir) (buf : Addr) (len : Len) (ln : BlkLine) : (s.atBlk d buf len ln).par = s.par := rfl
@[simp] theorem State.atBlk_tx (s : State) (d : Dir) (buf : Addr) (len : Len) (ln : BlkLine) : (s.atBlk d buf len ln).tx = s.tx := rfl
@[simp] theorem State.atBlk_rx (s : State) (d : Dir) (buf : Addr) (len : Len) (ln : BlkLine) : (s.atBlk d buf len ln).rx = s.rx := rfl
@[simp] theorem State.atBlk_cfg (s : State) (d : Dir) (buf : Addr) (len : Len) (ln : BlkLine) : (s.atBlk d buf len ln).cfg = s.cfg := rfl
@[simp] theorem State.atBlk_cr1 (s : State) (d : Dir) (buf : Addr) (len : Len) (ln : BlkLine) : (s.atBlk d buf len ln).cr1 = s.cr1 := rfl
@[simp] theorem State.atBlk_cr2 (s : State) (d : Dir) (buf : Addr) (len : Len) (ln : BlkLine) : (s.atBlk d buf len ln).cr2 = s.cr2 := rfl
@[simp] theorem State.atBlk_sr (s : State) (d : Dir) (buf : Addr) (len : Len) (ln : BlkLine) : (s.atBlk d buf len ln).sr = s.sr := rfl
@[simp] theorem State.atBlk_drTx (s : State) (d : Dir) (buf : Addr) (len : Len) (ln : BlkLine) : (s.atBlk d buf len ln).drTx = s.drTx := rfl
@[simp] theorem State.atBlk_drRx (s : State) (d : Dir) (buf : Addr) (len : Len) (ln : BlkLine) : (s.atBlk d buf len ln).drRx = s.drRx := rfl
@[simp] theorem State.atBlk_mem (s : State) (d : Dir) (buf : Addr) (len : Len) (ln : BlkLine) : (s.atBlk d buf len ln).mem = s.mem := rfl
@[simp] theorem State.atBlk_hph (s : State) (d : Dir) (buf : Addr) (len : Len) (ln : BlkLine) : (s.atBlk d buf len ln).hph = .blk d buf len ln := rfl
@[simp] theorem State.atBlk_dph (s : State) (d : Dir) (buf : Addr) (len : Len) (ln : BlkLine) : (s.atBlk d buf len ln).dph = s.dph := rfl
@[simp] theorem State.atBlk_txlog (s : State) (d : Dir) (buf : Addr) (len : Len) (ln : BlkLine) : (s.atBlk d buf len ln).txlog = s.txlog := rfl
@[simp] theorem State.atBlk_resp (s : State) (d : Dir) (buf : Addr) (len : Len) (ln : BlkLine) : (s.atBlk d buf len ln).resp = s.resp := rfl
@[simp] theorem State.atBlk_txSpan (s : State) (d : Dir) (buf : Addr) (len : Len) (ln : BlkLine) : (s.atBlk d buf len ln).txSpan = s.txSpan := rfl
@[simp] theorem State.atBlk_rxSpan (s : State) (d : Dir) (buf : Addr) (len : Len) (ln : BlkLine) : (s.atBlk d buf len ln).rxSpan = s.rxSpan := rfl
@[simp] theorem State.atBlk_hfault (s : State) (d : Dir) (buf : Addr) (len : Len) (ln : BlkLine) : (s.atBlk d buf len ln).hfault = s.hfault := rfl
@[simp] theorem State.atBlk_dfault (s : State) (d : Dir) (buf : Addr) (len : Len) (ln : BlkLine) : (s.atBlk d buf len ln).dfault = s.dfault := rfl
@[simp] theorem State.atBlk_script (s : State) (d : Dir) (buf : Addr) (len : Len) (ln : BlkLine) : (s.atBlk d buf len ln).script = s.script := rfl
@[simp] theorem State.atBlk_sched (s : State) (d : Dir) (buf : Addr) (len : Len) (ln : BlkLine) : (s.atBlk d buf len ln).sched = s.sched := rfl
@[simp] theorem State.atBlk_tick (s : State) (d : Dir) (buf : Addr) (len : Len) (ln : BlkLine) : (s.atBlk d buf len ln).tick = s.tick := rfl

/-! ### enterDispatch -/

@[simp] theorem State.enterDispatch_par (s : State)  : (s.enterDispatch).par = s.par := rfl
@[simp] theorem State.enterDispatch_tx (s : State)  : (s.enterDispatch).tx = s.tx := rfl
@[simp] theorem State.enterDispatch_rx (s : State)  : (s.enterDispatch).rx = s.rx := rfl
@[simp] theorem State.enterDispatch_cfg (s : State)  : (s.enterDispatch).cfg = s.cfg := rfl
@[simp] theorem State.enterDispatch_cr1 (s : State)  : (s.enterDispatch).cr1 = s.cr1 := rfl
@[simp] theorem State.enterDispatch_cr2 (s : State)  : (s.enterDispatch).cr2 = s.cr2 := rfl
@[simp] theorem State.enterDispatch_sr (s : State)  : (s.enterDispatch).sr = s.sr := rfl
@[simp] theorem State.enterDispatch_drTx (s : State)  : (s.enterDispatch).drTx = s.drTx := rfl
@[simp] theorem State.enterDispatch_drRx (s : State)  : (s.enterDispatch).drRx = s.drRx := rfl
@[simp] theorem State.enterDispatch_mem (s : State)  : (s.enterDispatch).mem = s.mem := rfl
@[simp] theorem State.enterDispatch_hph (s : State)  : (s.enterDispatch).hph = s.hph := rfl
@[simp] theorem State.enterDispatch_dph (s : State)  : (s.enterDispatch).dph = .i0 := rfl
@[simp] theorem State.enterDispatch_txlog (s : State)  : (s.enterDispatch).txlog = s.txlog := rfl
@[simp] theorem State.enterDispatch_resp (s : State)  : (s.enterDispatch).resp = s.resp := rfl
@[simp] theorem State.enterDispatch_txSpan (s : State)  : (s.enterDispatch).txSpan = s.txSpan := rfl
@[simp] theorem State.enterDispatch_rxSpan (s : State)  : (s.enterDispatch).rxSpan = s.rxSpan := rfl
@[simp] theorem State.enterDispatch_hfault (s : State)  : (s.enterDispatch).hfault = s.hfault := rfl
@[simp] theorem State.enterDispatch_dfault (s : State)  : (s.enterDispatch).dfault = s.dfault := rfl
@[simp] theorem State.enterDispatch_script (s : State)  : (s.enterDispatch).script = s.script := rfl
@[simp] theorem State.enterDispatch_sched (s : State)  : (s.enterDispatch).sched = s.sched := rfl
@[simp] theorem State.enterDispatch_tick (s : State)  : (s.enterDispatch).tick = s.tick := rfl

/-! ### raiseHost -/

@[simp] theorem State.raiseHost_par (s : State) (f : Fault) : (s.raiseHost f).par = s.par := by unfold State.raiseHost; split <;> simp_all
@[simp] theorem State.raiseHost_tx (s : State) (f : Fault) : (s.raiseHost f).tx = s.tx := by unfold State.raiseHost; split <;> simp_all
@[simp] theorem State.raiseHost_rx (s : State) (f : Fault) : (s.raiseHost f).rx = s.rx := by unfold State.raiseHost; split <;> simp_all
@[simp] theorem State.raiseHost_cfg (s : State) (f : Fault) : (s.raiseHost f).cfg = s.cfg := by unfold State.raiseHost; split <;> simp_all
@[simp] theorem State.raiseHost_cr1 (s : State) (f : Fault) : (s.raiseHost f).cr1 = s.cr1 := by unfold State.raiseHost; split <;> simp_all
@[simp] theorem State.raiseHost_cr2 (s : State) (f : Fault) : (s.raiseHost f).cr2 = s.cr2 := by unfold State.raiseHost; split <;> simp_all
@[simp] theorem State.raiseHost_sr (s : State) (f : Fault) : (s.raiseHost f).sr = s.sr := by unfold State.raiseHost; split <;> simp_all
@[simp] theorem State.raiseHost_drTx (s : State) (f : Fault) : (s.raiseHost f).drTx = s.drTx := by unfold State.raiseHost; split <;> simp_all
@[simp] theorem State.raiseHost_drRx (s : State) (f : Fault) : (s.raiseHost f).drRx = s.drRx := by unfold State.raiseHost; split <;> simp_all
@[simp] theorem State.raiseHost_mem (s : State) (f : Fault) : (s.raiseHost f).mem = s.mem := by unfold State.raiseHost; split <;> simp_all
@[simp] theorem State.raiseHost_hph (s : State) (f : Fault) : (s.raiseHost f).hph = s.hph := by unfold State.raiseHost; split <;> simp_all
@[simp] theorem State.raiseHost_dph (s : State) (f : Fault) : (s.raiseHost f).dph = s.dph := by unfold State.raiseHost; split <;> simp_all
@[simp] theorem State.raiseHost_txlog (s : State) (f : Fault) : (s.raiseHost f).txlog = s.txlog := by unfold State.raiseHost; split <;> simp_all
@[simp] theorem State.raiseHost_resp (s : State) (f : Fault) : (s.raiseHost f).resp = s.resp := by unfold State.raiseHost; split <;> simp_all
@[simp] theorem State.raiseHost_txSpan (s : State) (f : Fault) : (s.raiseHost f).txSpan = s.txSpan := by unfold State.raiseHost; split <;> simp_all
@[simp] theorem State.raiseHost_rxSpan (s : State) (f : Fault) : (s.raiseHost f).rxSpan = s.rxSpan := by unfold State.raiseHost; split <;> simp_all
@[simp] theorem State.raiseHost_hfault (s : State) (f : Fault) : (s.raiseHost f).hfault = some (s.hfault.getD f) := by unfold State.raiseHost; split <;> simp_all
@[simp] theorem State.raiseHost_dfault (s : State) (f : Fault) : (s.raiseHost f).dfault = s.dfault := by unfold State.raiseHost; split <;> simp_all
@[simp] theorem State.raiseHost_script (s : State) (f : Fault) : (s.raiseHost f).script = s.script := by unfold State.raiseHost; split <;> simp_all
@[simp] theorem State.raiseHost_sched (s : State) (f : Fault) : (s.raiseHost f).sched = s.sched := by unfold State.raiseHost; split <;> simp_all
@[simp] theorem State.raiseHost_tick (s : State) (f : Fault) : (s.raiseHost f).tick = s.tick := by unfold State.raiseHost; split <;> simp_all

/-! ### raiseDisp -/

@[simp] theorem State.raiseDisp_par (s : State) (f : Fault) : (s.raiseDisp f).par = s.par := by unfold State.raiseDisp; split <;> simp_all
@[simp] theorem State.raiseDisp_tx (s : State) (f : Fault) : (s.raiseDisp f).tx = s.tx := by unfold State.raiseDisp; split <;> simp_all
@[simp] theorem State.raiseDisp_rx (s : State) (f : Fault) : (s.raiseDisp f).rx = s.rx := by unfold State.raiseDisp; split <;> simp_all
@[simp] theorem State.raiseDisp_cfg (s : State) (f : Fault) : (s.raiseDisp f).cfg = s.cfg := by unfold State.raiseDisp; split <;> simp_all
@[simp] theorem State.raiseDisp_cr1 (s : State) (f : Fault) : (s.raiseDisp f).cr1 = s.cr1 := by unfold State.raiseDisp; split <;> simp_all
@[simp] theorem State.raiseDisp_cr2 (s : State) (f : Fault) : (s.raiseDisp f).cr2 = s.cr2 := by unfold State.raiseDisp; split <;> simp_all
@[simp] theorem State.raiseDisp_sr (s : State) (f : Fault) : (s.raiseDisp f).sr = s.sr := by unfold State.raiseDisp; split <;> simp_all
@[simp] theorem State.raiseDisp_drTx (s : State) (f : Fault) : (s.raiseDisp f).drTx = s.drTx := by unfold State.raiseDisp; split <;> simp_all
@[simp] theorem State.raiseDisp_drRx (s : State) (f : Fault) : (s.raiseDisp f).drRx = s.drRx := by unfold State.raiseDisp; split <;> simp_all
@[simp] theorem State.raiseDisp_mem (s : State) (f : Fault) : (s.raiseDisp f).mem = s.mem := by unfold State.raiseDisp; split <;> simp_all
@[simp] theorem State.raiseDisp_hph (s : State) (f : Fault) : (s.raiseDisp f).hph = s.hph := by unfold State.raiseDisp; split <;> simp_all
@[simp] theorem State.raiseDisp_dph (s : State) (f : Fault) : (s.raiseDisp f).dph = s.dph := by unfold State.raiseDisp; split <;> simp_all
@[simp] theorem State.raiseDisp_txlog (s : State) (f : Fault) : (s.raiseDisp f).txlog = s.txlog := by unfold State.raiseDisp; split <;> simp_all
@[simp] theorem State.raiseDisp_resp (s : State) (f : Fault) : (s.raiseDisp f).resp = s.resp := by unfold State.raiseDisp; split <;> simp_all
@[simp] theorem State.raiseDisp_txSpan (s : State) (f : Fault) : (s.raiseDisp f).txSpan = s.txSpan := by unfold State.raiseDisp; split <;> simp_all
@[simp] theorem State.raiseDisp_rxSpan (s : State) (f : Fault) : (s.raiseDisp f).rxSpan = s.rxSpan := by unfold State.raiseDisp; split <;> simp_all
@[simp] theorem State.raiseDisp_hfault (s : State) (f : Fault) : (s.raiseDisp f).hfault = s.hfault := by unfold State.raiseDisp; split <;> simp_all
@[simp] theorem State.raiseDisp_dfault (s : State) (f : Fault) : (s.raiseDisp f).dfault = some (s.dfault.getD f) := by unfold State.raiseDisp; split <;> simp_all
@[simp] theorem State.raiseDisp_script (s : State) (f : Fault) : (s.raiseDisp f).script = s.script := by unfold State.raiseDisp; split <;> simp_all
@[simp] theorem State.raiseDisp_sched (s : State) (f : Fault) : (s.raiseDisp f).sched = s.sched := by unfold State.raiseDisp; split <;> simp_all
@[simp] theorem State.raiseDisp_tick (s : State) (f : Fault) : (s.raiseDisp f).tick = s.tick := by unfold State.raiseDisp; split <;> simp_all

/-! ### advance -/

@[simp] theorem State.advance_par (s : State) (d : Dir) (w : FrameWidth) : (s.advance d w).par = s.par := by cases d <;> rfl
@[simp] theorem State.advance_cfg (s : State) (d : Dir) (w : FrameWidth) : (s.advance d w).cfg = s.cfg := by cases d <;> rfl
@[simp] theorem State.advance_cr1 (s : State) (d : Dir) (w : FrameWidth) : (s.advance d w).cr1 = s.cr1 := by cases d <;> rfl
@[simp] theorem State.advance_cr2 (s : State) (d : Dir) (w : FrameWidth) : (s.advance d w).cr2 = s.cr2 := by cases d <;> rfl
@[simp] theorem State.advance_sr (s : State) (d : Dir) (w : FrameWidth) : (s.advance d w).sr = s.sr := by cases d <;> rfl
@[simp] theorem State.advance_drTx (s : State) (d : Dir) (w : FrameWidth) : (s.advance d w).drTx = s.drTx := by cases d <;> rfl
@[simp] theorem State.advance_drRx (s : State) (d : Dir) (w : FrameWidth) : (s.advance d w).drRx = s.drRx := by cases d <;> rfl
@[simp] theorem State.advance_mem (s : State) (d : Dir) (w : FrameWidth) : (s.advance d w).mem = s.mem := by cases d <;> rfl
@[simp] theorem State.advance_hph (s : State) (d : Dir) (w : FrameWidth) : (s.advance d w).hph = s.hph := by cases d <;> rfl
@[simp] theorem State.advance_dph (s : State) (d : Dir) (w : FrameWidth) : (s.advance d w).dph = s.dph := by cases d <;> rfl
@[simp] theorem State.advance_txlog (s : State) (d : Dir) (w : FrameWidth) : (s.advance d w).txlog = s.txlog := by cases d <;> rfl
@[simp] theorem State.advance_resp (s : State) (d : Dir) (w : FrameWidth) : (s.advance d w).resp = s.resp := by cases d <;> rfl
@[simp] theorem State.advance_txSpan (s : State) (d : Dir) (w : FrameWidth) : (s.advance d w).txSpan = s.txSpan := by cases d <;> rfl
@[simp] theorem State.advance_rxSpan (s : State) (d : Dir) (w : FrameWidth) : (s.advance d w).rxSpan = s.rxSpan := by cases d <;> rfl
@[simp] theorem State.advance_hfault (s : State) (d : Dir) (w : FrameWidth) : (s.advance d w).hfault = s.hfault := by cases d <;> rfl
@[simp] theorem State.advance_dfault (s : State) (d : Dir) (w : FrameWidth) : (s.advance d w).dfault = s.dfault := by cases d <;> rfl
@[simp] theorem State.advance_script (s : State) (d : Dir) (w : FrameWidth) : (s.advance d w).script = s.script := by cases d <;> rfl
@[simp] theorem State.advance_sched (s : State) (d : Dir) (w : FrameWidth) : (s.advance d w).sched = s.sched := by cases d <;> rfl
@[simp] theorem State.advance_tick (s : State) (d : Dir) (w : FrameWidth) : (s.advance d w).tick = s.tick := by cases d <;> rfl

/-! ### countDown -/

@[simp] theorem State.countDown_par (s : State) (d : Dir) (w : FrameWidth) : (s.countDown d w).par = s.par := by cases d <;> rfl
@[simp] theorem State.countDown_cfg (s : State) (d : Dir) (w : FrameWidth) : (s.countDown d w).cfg = s.cfg := by cases d <;> rfl
@[simp] theorem State.countDown_cr1 (s : State) (d : Dir) (w : FrameWidth) : (s.countDown d w).cr1 = s.cr1 := by cases d <;> rfl
@[simp] theorem State.countDown_cr2 (s : State) (d : Dir) (w : FrameWidth) : (s.countDown d w).cr2 = s.cr2 := by cases d <;> rfl
@[simp] theorem State.countDown_sr (s : State) (d : Dir) (w : FrameWidth) : (s.countDown d w).sr = s.sr := by cases d <;> rfl
@[simp] theorem State.countDown_drTx (s : State) (d : Dir) (w : FrameWidth) : (s.countDown d w).drTx = s.drTx := by cases d <;> rfl
@[simp] theorem State.countDown_drRx (s : State) (d : Dir) (w : FrameWidth) : (s.countDown d w).drRx = s.drRx := by cases d <;> rfl
@[simp] theorem State.countDown_mem (s : State) (d : Dir) (w : FrameWidth) : (s.countDown d w).mem = s.mem := by cases d <;> rfl
@[simp] theorem State.countDown_hph (s : State) (d : Dir) (w : FrameWidth) : (s.countDown d w).hph = s.hph := by cases d <;> rfl
@[simp] theorem State.countDown_dph (s : State) (d : Dir) (w : FrameWidth) : (s.countDown d w).dph = s.dph := by cases d <;> rfl
@[simp] theorem State.countDown_txlog (s : State) (d : Dir) (w : FrameWidth) : (s.countDown d w).txlog = s.txlog := by cases d <;> rfl
@[simp] theorem State.countDown_resp (s : State) (d : Dir) (w : FrameWidth) : (s.countDown d w).resp = s.resp := by cases d <;> rfl
@[simp] theorem State.countDown_txSpan (s : State) (d : Dir) (w : FrameWidth) : (s.countDown d w).txSpan = s.txSpan := by cases d <;> rfl
@[simp] theorem State.countDown_rxSpan (s : State) (d : Dir) (w : FrameWidth) : (s.countDown d w).rxSpan = s.rxSpan := by cases d <;> rfl
@[simp] theorem State.countDown_hfault (s : State) (d : Dir) (w : FrameWidth) : (s.countDown d w).hfault = s.hfault := by cases d <;> rfl
@[simp] theorem State.countDown_dfault (s : State) (d : Dir) (w : FrameWidth) : (s.countDown d w).dfault = s.dfault := by cases d <;> rfl
@[simp] theorem State.countDown_script (s : State) (d : Dir) (w : FrameWidth) : (s.countDown d w).script = s.script := by cases d <;> rfl
@[simp] theorem State.countDown_sched (s : State) (d : Dir) (w : FrameWidth) : (s.countDown d w).sched = s.sched := by cases d <;> rfl
@[simp] theorem State.countDown_tick (s : State) (d : Dir) (w : FrameWidth) : (s.countDown d w).tick = s.tick := by cases d <;> rfl

end Sys2Proof.Machine
end

