-- ==== Sys2Proof/Laws/Flags.lean ====
section
/-! SUPPORT. Bits of a register after one bit is set or cleared (R132, R133). -/

namespace Sys2Proof.Machine

open Sys2Proof

theorem getLsbD_setBit (v : Half) (k j : Nat) (hj : j < 16) :
    (setBit v k).getLsbD j = (decide (j = k) || v.getLsbD j) := by
  simp only [setBit, BitVec.getLsbD_or, BitVec.getLsbD_twoPow]
  rcases Nat.lt_trichotomy j k with h | h | h
  · simp [Nat.ne_of_lt h, (Nat.ne_of_lt h).symm]
  · subst h; simp [hj]
  · simp [Nat.ne_of_gt h, (Nat.ne_of_gt h).symm]

theorem getLsbD_clrBit (v : Half) (k j : Nat) (hj : j < 16) :
    (clrBit v k).getLsbD j = (!decide (j = k) && v.getLsbD j) := by
  simp only [clrBit, BitVec.getLsbD_and, BitVec.getLsbD_not, BitVec.getLsbD_twoPow]
  rcases Nat.lt_trichotomy j k with h | h | h
  · simp [Nat.ne_of_lt h, (Nat.ne_of_lt h).symm, hj]
  · subst h; simp [hj]
  · simp [Nat.ne_of_gt h, (Nat.ne_of_gt h).symm, hj]

theorem getLsbD_putBit (v : Half) (k j : Nat) (b : Bool) (hj : j < 16) :
    (putBit v k b).getLsbD j = (if j = k then b else v.getLsbD j) := by
  cases b
  · simp only [putBit, Bool.false_eq_true, if_false, getLsbD_clrBit v k j hj]
    by_cases h : j = k <;> simp [h]
  · simp only [putBit, if_true, getLsbD_setBit v k j hj]
    by_cases h : j = k <;> simp [h]

/-- The enable bits are two different bits of a 16-bit register. -/
theorem enableBit_lt (d : Dir) : enableBit d < 16 := by cases d <;> decide

theorem enableBit_ne {d e : Dir} (h : e ≠ d) : enableBit e ≠ enableBit d := by
  cases d <;> cases e <;> first | decide | exact absurd rfl h

theorem flagBit_lt (d : Dir) : flagBit d < 16 := by cases d <;> decide

/-- The gate on the live registers is the enable bit and the flag (R181). -/
theorem gateOpen_live (s : State) (d : Dir) : gateOpen d s.cr2 s.sr = (s.enabled d && s.flagged d) := rfl

/-- irq is the two gates on the live registers (R210). -/
theorem State.irq_eq_gates (s : State) : s.irq = (gateOpen .tx s.cr2 s.sr || gateOpen .rx s.cr2 s.sr) := rfl

end Sys2Proof.Machine
end

