-- ==== Sys2Proof/Laws/Memory.lean ====
section
/-! SUPPORT. The laws of the buffer memory: read after write, and the canonical form kept. -/

namespace Sys2Proof.Machine

open Sys2Proof

/-- A write leaves every other address as it was. -/
theorem Memory.read_write_ne (m : Memory) {k j : Nat} (v : Byte) (h : j ≠ k) :
    Memory.read (Memory.write m k v) j = Memory.read m j := by
  induction m with
  | nil => unfold Memory.write; split <;> simp [Memory.read, h]
  | cons c m ih =>
    obtain ⟨a, b⟩ := c
    unfold Memory.write
    split
    · split <;> simp [Memory.read, h]
    · split
      · subst a; split <;> simp [Memory.read, h]
      · simp only [Memory.read, ih]

/-- An address below every entry reads as an unlisted one. -/
theorem Memory.read_below (m : Memory) {lo k : Nat} (h : Memory.wfFrom lo m = true) (hk : k < lo) :
    Memory.read m k = Memory.blank := by
  induction m generalizing lo with
  | nil => rfl
  | cons c m ih =>
    obtain ⟨a, b⟩ := c
    simp only [Memory.wfFrom, Bool.and_eq_true, decide_eq_true_eq] at h
    obtain ⟨⟨⟨h1, -⟩, -⟩, h4⟩ := h
    rw [Memory.read, if_neg (by omega)]
    exact ih h4 (by omega)

/-- A written address reads as the value written. -/
theorem Memory.read_write_same (m : Memory) {lo : Nat} (k : Nat) (v : Byte) (h : Memory.wfFrom lo m = true) :
    Memory.read (Memory.write m k v) k = v := by
  induction m generalizing lo with
  | nil =>
    unfold Memory.write
    split
    · next hv => rw [hv]; rfl
    · simp [Memory.read]
  | cons c m ih =>
    obtain ⟨a, b⟩ := c
    have h' := h
    simp only [Memory.wfFrom, Bool.and_eq_true, decide_eq_true_eq] at h
    obtain ⟨⟨⟨h1, -⟩, -⟩, h4⟩ := h
    unfold Memory.write
    split
    · next hk =>
      split
      · next hv =>
        rw [Memory.read, if_neg (by omega), Memory.read_below m h4 (by omega), hv]
      · simp [Memory.read]
    · next hk =>
      split
      · next e =>
        split
        · next hv => rw [hv]; exact Memory.read_below m h4 (by omega)
        · simp [Memory.read]
      · next hn =>
        rw [Memory.read, if_neg hn]
        exact ih h4

/-- The canonical form from a higher address holds from a lower one. -/
theorem Memory.wfFrom_mono (m : Memory) {lo lo' : Nat} (h : Memory.wfFrom lo m = true) (hl : lo' ≤ lo) :
    Memory.wfFrom lo' m = true := by
  cases m with
  | nil => rfl
  | cons c m =>
    obtain ⟨a, b⟩ := c
    simp only [Memory.wfFrom, Bool.and_eq_true, decide_eq_true_eq] at h ⊢
    exact ⟨⟨⟨by omega, h.1.1.2⟩, h.1.2⟩, h.2⟩

/-- A write inside the address space keeps the canonical form. -/
theorem Memory.wfFrom_write (m : Memory) {lo k : Nat} (v : Byte) (h : Memory.wfFrom lo m = true) (hk : lo ≤ k)
    (hs : k < 2 ^ 32) : Memory.wfFrom lo (Memory.write m k v) = true := by
  induction m generalizing lo with
  | nil =>
    unfold Memory.write
    split
    · rfl
    · next hv => simp [Memory.wfFrom, hk, hv]; omega
  | cons c m ih =>
    obtain ⟨a, b⟩ := c
    have h' := h
    simp only [Memory.wfFrom, Bool.and_eq_true, decide_eq_true_eq] at h
    obtain ⟨⟨⟨h1, h2⟩, h3⟩, h4⟩ := h
    unfold Memory.write
    split
    · next hlt =>
      split
      · exact h'
      · next hv =>
        simp only [Memory.wfFrom, Bool.and_eq_true, decide_eq_true_eq]
        exact ⟨⟨⟨hk, hs⟩, hv⟩, ⟨⟨by omega, h2⟩, h3⟩, h4⟩
    · next hlt =>
      split
      · next e =>
        subst e
        split
        · exact Memory.wfFrom_mono m h4 (by omega)
        · next hv =>
          simp only [Memory.wfFrom, Bool.and_eq_true, decide_eq_true_eq]
          exact ⟨⟨⟨h1, h2⟩, hv⟩, h4⟩
      · next hn =>
        simp only [Memory.wfFrom, Bool.and_eq_true, decide_eq_true_eq]
        exact ⟨⟨⟨h1, h2⟩, h3⟩, ih h4 (by omega)⟩

/-- The write of a byte keeps the canonical form. -/
theorem State.putByte_wf {s : State} (a : Addr) (v : Byte) (h : s.mem.wf = true) : (s.putByte a v).mem.wf = true :=
  Memory.wfFrom_write s.mem v h (Nat.zero_le _) a.isLt

/-- The write of a unit keeps the canonical form. -/
theorem State.writeUnit_wf {s : State} (w : FrameWidth) (a : Addr) (v : Half) (h : s.mem.wf = true) :
    (s.writeUnit w a v).mem.wf = true := by
  cases w
  · exact State.putByte_wf a _ h
  · exact State.putByte_wf (a + 1) _ (State.putByte_wf a _ h)

/-- A written byte reads back. -/
theorem State.byteAt_putByte_same {s : State} (a : Addr) (v : Byte) (h : s.mem.wf = true) :
    (s.putByte a v).byteAt a = v := Memory.read_write_same s.mem a.toNat v h

/-- A written byte leaves the others. -/
theorem State.byteAt_putByte_ne (s : State) {a b : Addr} (v : Byte) (h : b ≠ a) :
    (s.putByte a v).byteAt b = s.byteAt b :=
  Memory.read_write_ne s.mem v (fun e => h (BitVec.eq_of_toNat_eq e))

/-- An address and the next differ, at the top of the address space too. -/
theorem addr_succ_ne (a : Addr) : a ≠ a + 1 := by
  intro h
  have := congrArg BitVec.toNat h
  simp [BitVec.toNat_add] at this
  omega

/-- The two bytes of a stored 16-bit unit. -/
theorem State.byteAt_writeUnit16_first {s : State} (a : Addr) (v : Half) (h : s.mem.wf = true) :
    (s.writeUnit .w16 a v).byteAt a = firstByte s.par.byteOrder v := by
  show ((s.putByte a _).putByte (a + 1) _).byteAt a = _
  rw [State.byteAt_putByte_ne _ _ (addr_succ_ne a), State.byteAt_putByte_same a _ h]

theorem State.byteAt_writeUnit16_second {s : State} (a : Addr) (v : Half) (h : s.mem.wf = true) :
    (s.writeUnit .w16 a v).byteAt (a + 1) = secondByte s.par.byteOrder v :=
  State.byteAt_putByte_same (a + 1) _ (State.putByte_wf a _ h)

theorem State.byteAt_writeUnit16_ne (s : State) {a b : Addr} (v : Half) (h1 : b ≠ a) (h2 : b ≠ a + 1) :
    (s.writeUnit .w16 a v).byteAt b = s.byteAt b := by
  show ((s.putByte a _).putByte (a + 1) _).byteAt b = _
  rw [State.byteAt_putByte_ne _ _ h2, State.byteAt_putByte_ne _ _ h1]

/-- The byte stored by an 8-bit unit. -/
theorem State.byteAt_writeUnit8 {s : State} (a : Addr) (v : Half) (h : s.mem.wf = true) :
    (s.writeUnit .w8 a v).byteAt a = v.extractLsb' 0 8 := State.byteAt_putByte_same a _ h

theorem State.byteAt_writeUnit8_ne (s : State) {a b : Addr} (v : Half) (h : b ≠ a) :
    (s.writeUnit .w8 a v).byteAt b = s.byteAt b := State.byteAt_putByte_ne s _ h

/-- The two bytes of a 16-bit value, assembled in the same order, are the value (R73). -/
theorem assemble_bytes (o : ByteOrder) (v : Half) : assemble o (firstByte o v) (secondByte o v) = v := by
  have h : v.extractLsb' 8 8 ++ v.extractLsb' 0 8 = v := by
    apply BitVec.eq_of_toNat_eq
    have := v.isLt
    simp only [BitVec.toNat_append, BitVec.extractLsb'_toNat, Nat.shiftRight_zero]
    rw [← Nat.shiftLeft_add_eq_or_of_lt (by omega), Nat.shiftLeft_eq, Nat.shiftRight_eq_div_pow]
    omega
  cases o <;> exact h

end Sys2Proof.Machine
end

