-- ==== Sys2Proof/Laws/Runs.lean ====
section
/-! SUPPORT. Whole operations as runs of lines: one line at a time, and what a run keeps if each line keeps it. -/

namespace Sys2Proof.Machine

open Sys2Proof

theorem State.hostMayBegin_iff (s : State) :
    s.hostMayBegin = true ↔ s.hph = .idle ∧ s.dph = .idle ∧ s.hfault = none := by
  simp [State.hostMayBegin, and_assoc]

theorem State.dispMayStart_iff (s : State) :
    s.dispMayStart = true ↔ s.dph = .idle ∧ s.dfault = none ∧ (s.par.atomicHost = true → s.hph = .idle) := by
  simp only [State.dispMayStart, Bool.and_eq_true, decide_eq_true_eq, Option.isNone_iff_eq_none, Bool.or_eq_true,
    Bool.not_eq_true', and_assoc]
  cases s.par.atomicHost <;> simp

/-- A run of HOST whose command has ended stays where it is. -/
theorem runHost_idle (k : Nat) {s : State} (h : s.hph = .idle) : runHost k s = .next s := by
  cases k with
  | zero => rfl
  | succ k => rw [runHost, if_pos (.inl h)]

/-- A run of HOST that a fault has stopped stays where it is. -/
theorem runHost_stopped (k : Nat) {s : State} (h : s.hfault.isSome = true) : runHost k s = .next s := by
  cases k with
  | zero => rfl
  | succ k => rw [runHost, if_pos (.inr h)]

/-- A run of HOST is its next line, then the rest. -/
theorem runHost_next (k : Nat) {s t : State} (hi : s.hph ≠ .idle) (hf : s.hfault = none)
    (h : hostMicro s = .next t) : runHost (k + 1) s = runHost k t := by
  rw [runHost, if_neg (by simp [hi, hf]), h]

/-- A run of HOST at a line that leaves the state as it is, a spin loop, holds there. -/
theorem runHost_spin (k : Nat) {s : State} (h : hostMicro s = .next s) : runHost k s = .next s := by
  induction k with
  | zero => rfl
  | succ k ih =>
    by_cases hc : s.hph = .idle ∨ s.hfault.isSome
    · rw [runHost, if_pos hc]
    · rw [runHost, if_neg hc, h]; exact ih

/-- What every line of HOST keeps, a run of HOST keeps. -/
theorem runHost_keeps {P : State → Prop}
    (hm : ∀ s t, P s → s.hfault = none → hostMicro s = .next t → P t) (k : Nat) {s t : State} (hp : P s)
    (h : runHost k s = .next t) : P t := by
  induction k generalizing s with
  | zero => cases h; exact hp
  | succ k ih =>
    unfold runHost at h
    split at h
    · cases h; exact hp
    · next hc =>
      split at h
      · next u hu => exact ih (hm s u hp (by simpa using fun e => hc (.inr e)) hu) h
      · cases h
      · cases h

/-- A run of a step that has returned stays where it is. -/
theorem runStep_out (k : Nat) {s : State} (h : inStep s.dph = false) : runStep k s = s := by
  cases k with
  | zero => rfl
  | succ k => simp [runStep, h]

/-- A run of a step that a fault has stopped stays where it is. -/
theorem runStep_stopped (k : Nat) {s : State} (h : s.dfault.isSome = true) : runStep k s = s := by
  cases k with
  | zero => rfl
  | succ k => simp [runStep, Option.isNone_eq_false_iff.mpr h]

/-- A run of a step is its next line, then the rest. -/
theorem runStep_next (k : Nat) {s : State} (hi : inStep s.dph = true) (hf : s.dfault = none) :
    runStep (k + 1) s = runStep k (dispMicro s) := by
  simp [runStep, hi, hf]

/-- What every line of DISP keeps, a run of a step keeps. -/
theorem runStep_keeps {P : State → Prop} (hm : ∀ s, P s → s.dfault = none → P (dispMicro s)) (k : Nat) {s : State}
    (hp : P s) : P (runStep k s) := by
  induction k generalizing s with
  | zero => exact hp
  | succ k ih =>
    unfold runStep
    split
    · next hc =>
      simp only [Bool.and_eq_true, Option.isNone_iff_eq_none] at hc
      exact ih (hm s hp hc.2)
    · exact hp

/-- A run of a dispatch that has returned stays where it is. -/
theorem runDisp_idle (k : Nat) {s : State} (h : s.dph = .idle) : runDisp k s = s := by
  cases k with
  | zero => rfl
  | succ k => rw [runDisp, if_pos (.inl h)]

/-- A run of a dispatch that a fault has stopped stays where it is. -/
theorem runDisp_stopped (k : Nat) {s : State} (h : s.dfault.isSome = true) : runDisp k s = s := by
  cases k with
  | zero => rfl
  | succ k => rw [runDisp, if_pos (.inr h)]

/-- A run of a dispatch is its next line, then the rest. -/
theorem runDisp_next (k : Nat) {s : State} (hi : s.dph ≠ .idle) (hf : s.dfault = none) :
    runDisp (k + 1) s = runDisp k (dispMicro s) := by
  rw [runDisp, if_neg (by simp [hi, hf])]

/-- What every line of DISP keeps, a run of a dispatch keeps. -/
theorem runDisp_keeps {P : State → Prop} (hm : ∀ s, P s → s.dfault = none → P (dispMicro s)) (k : Nat) {s : State}
    (hp : P s) : P (runDisp k s) := by
  induction k generalizing s with
  | zero => exact hp
  | succ k ih =>
    unfold runDisp
    split
    · exact hp
    · next hc => exact ih (hm s hp (by simpa using fun e => hc (.inr e)))

/-- What a host command begun leaves: it could not begin and nothing changed, or its run from the first line. -/
theorem beginHost_cases (ph : HostPhase) (s : State) :
    (s.hostMayBegin = true ∧ beginHost ph s = runHost hostFuel { s with hph := ph }) ∨
      (s.hostMayBegin = false ∧ beginHost ph s = .next s) := by
  unfold beginHost
  cases h : s.hostMayBegin
  · exact .inr ⟨rfl, if_neg (by decide)⟩
  · exact .inl ⟨rfl, if_pos rfl⟩

/-- What a step begun leaves: its run, where DISP stands at its first line, else nothing changed. -/
theorem beginStep_cases (p : DispPhase) (s : State) :
    (s.dph = p ∧ s.dfault = none ∧ beginStep p s = .next (runStep stepFuel s)) ∨ beginStep p s = .next s := by
  unfold beginStep
  split
  · next h => exact .inl ⟨h.1, h.2, rfl⟩
  · exact .inr rfl

/-- What a dispatch started leaves: its run, where it may start, else nothing changed. -/
theorem beginDispatch_cases (s : State) :
    (s.dispMayStart = true ∧ beginDispatch s = .next (runDisp dispFuel s.enterDispatch)) ∨
      (s.dispMayStart = false ∧ beginDispatch s = .next s) := by
  unfold beginDispatch
  cases h : s.dispMayStart
  · exact .inr ⟨rfl, if_neg (by decide)⟩
  · exact .inl ⟨rfl, if_pos rfl⟩

end Sys2Proof.Machine
end

