-- ==== Sys2Proof/Laws/Step.lean ====
section
/-! SUPPORT. What a step can do, said once: it keeps whatever every line, every start and every PERIPH step keeps. -/

namespace Sys2Proof.Machine

open Sys2Proof

/-- A line of HOST leaves the dispatcher's phase and fault. -/
theorem hostMicro_dph {s t : State} (h : hostMicro s = .next t) : t.dph = s.dph ∧ t.dfault = s.dfault := by
  unfold hostMicro at h
  split at h
  · cases h; exact ⟨rfl, rfl⟩
  · next c ln _ =>
    cases ln
    · simp only [initMicro] at h
      split at h
      · cases h
      · cases h; exact ⟨rfl, rfl⟩
    · cases h; simp
  · next d buf len ln _ =>
    cases h
    cases ln <;> simp only [submitMicro, State.rmwSetWrite] <;> (try split) <;> (try split) <;> simp
  · next m ln _ => cases h; cases ln <;> simp [flagMicro]
  · next d ln _ => cases h; cases ln <;> simp [getMicro]
  · next d buf len ln _ =>
    cases h
    cases d <;> cases ln <;> simp only [blkMicro, blkTxMicro, blkRxMicro] <;> (try split) <;> (try split) <;>
      simp [State.drRd]

/-- The hypotheses an invariant needs, one per kind of move (R230): the model's own fields do not matter to it, and
every line, every start and every PERIPH step keeps it. -/
structure Kept (P : State → Prop) : Prop where
  turn  : ∀ s sc ts n, P s → P { s with script := sc, sched := ts, tick := n }
  begun : ∀ s (i : Instr), P s → s.hostMayBegin = true → P { s with hph := hostEntry i }
  host  : ∀ s t, P s → s.dph = .idle → s.hfault = none → hostMicro s = .next t → P t
  enter : ∀ s, P s → s.dispMayStart = true → P s.enterDispatch
  disp  : ∀ s, P s → s.dfault = none → P (dispMicro s)
  perip : ∀ s a, P s → P (periphStep a s)

/-- A host command begun keeps what the moves keep. -/
theorem Kept.beginHost {P : State → Prop} (K : Kept P) (i : Instr) {s t : State} (hp : P s)
    (h : beginHost (hostEntry i) s = .next t) : P t := by
  rcases beginHost_cases (hostEntry i) s with ⟨hb, he⟩ | ⟨-, he⟩
  · rw [he] at h
    have hs := (State.hostMayBegin_iff s).1 hb
    have := runHost_keeps (P := fun u => P u ∧ u.dph = .idle)
      (fun a b hab hf hm => ⟨K.host a b hab.1 hab.2 hf hm, by rw [(hostMicro_dph hm).1]; exact hab.2⟩)
      hostFuel ⟨K.begun s i hp hb, hs.2.1⟩ h
    exact this.1
  · rw [he] at h; cases h; exact hp

theorem Kept.beginStep {P : State → Prop} (K : Kept P) (p : DispPhase) {s t : State} (hp : P s)
    (h : beginStep p s = .next t) : P t := by
  rcases beginStep_cases p s with ⟨-, -, he⟩ | he
  · rw [he] at h; cases h; exact runStep_keeps K.disp _ hp
  · rw [he] at h; cases h; exact hp

theorem Kept.beginDispatch {P : State → Prop} (K : Kept P) {s t : State} (hp : P s)
    (h : beginDispatch s = .next t) : P t := by
  rcases beginDispatch_cases s with ⟨hb, he⟩ | ⟨-, he⟩
  · rw [he] at h; cases h; exact runDisp_keeps K.disp _ (K.enter s hp hb)
  · rw [he] at h; cases h; exact hp

/-- Every instruction keeps what the moves keep. -/
theorem Kept.exec {P : State → Prop} (K : Kept P) (i : Instr) {s t : State} (hp : P s)
    (h : exec i s = .next t) : P t := by
  cases i with
  | init c => exact K.beginHost (.init c) hp h
  | submitTx b l => exact K.beginHost (.submitTx b l) hp h
  | submitRx b l => exact K.beginHost (.submitRx b l) hp h
  | flagStatus m =>
    simp only [Machine.exec, execFlagStatus] at h
    split at h
    · exact K.beginHost (.flagStatus m) hp h
    · cases h
  | getState d => exact K.beginHost (.getState d) hp h
  | blkTx b l => exact K.beginHost (.blkTx b l) hp h
  | blkRx b l => exact K.beginHost (.blkRx b l) hp h
  | stepTx8 => exact K.beginStep _ hp h
  | stepTx16 => exact K.beginStep _ hp h
  | stepRx8 => exact K.beginStep _ hp h
  | stepRx16 => exact K.beginStep _ hp h
  | closeTx => exact K.beginStep _ hp h
  | closeRx => exact K.beginStep _ hp h
  | irqDispatch => rw [Machine.exec, execIrqDispatch] at h; exact K.beginDispatch hp h

/-- A rejected word that answers a next state has changed nothing. -/
theorem rejected_next {r : Reject} {s t : State} (h : rejected r s = .next t) : t = s := by
  unfold rejected at h
  split at h
  · cases h
  · cases h; rfl

/-- A rejected word that answers a next state, or an operation executed. -/
theorem runWord_cases {w : OpWord} {s t : State} (h : runWord w s = .next t) : t = s ∨ ∃ i, exec i s = .next t := by
  unfold runWord at h
  split at h
  · next i _ => exact .inr ⟨i, h⟩
  · exact .inl (rejected_next h)

/-- A command started that answers a next state stands at its first line. -/
theorem startCommand_cases {w : CmdWord} {s t : State} (h : startCommand w s = .next t) :
    t = s ∨ ∃ i, t = { s with hph := hostEntry i } := by
  unfold startCommand at h
  split at h
  · next i _ => cases h; exact .inr ⟨i, rfl⟩
  · exact .inl (rejected_next h)

/-- The end of a wait changes the script only. -/
theorem State.endWait_frame (s : State) : ∃ sc, s.endWait = { s with script := sc } := by
  unfold State.endWait
  split
  · split
    · exact ⟨_, rfl⟩
    · exact ⟨s.script, rfl⟩
  · exact ⟨s.script, rfl⟩

/-- A turn on the script, run whole: nothing, or an operation, with the script changed before or after. -/
theorem runScript_cases {s t : State} (h : runScript s = .next t) :
    ∃ sc sc' u, t = { u with script := sc' } ∧
      (u = { s with script := sc } ∨ ∃ i, exec i { s with script := sc } = .next u) := by
  unfold runScript at h
  split at h
  · cases h; exact ⟨s.script, s.script, s, rfl, .inl rfl⟩
  · next w rest _ => exact ⟨rest, t.script, t, rfl, runWord_cases h⟩
  · next d rest _ =>
    split at h
    · next u hu =>
      have hc := runWord_cases hu
      cases h
      split
      · exact ⟨s.script, rest, u, rfl, hc⟩
      · exact ⟨s.script, u.script, u, rfl, hc⟩
    · cases h
    · cases h

/-- A move on with the script: nothing, a command started, or a line, with the script changed. -/
theorem scriptMicro_cases {s t : State} (h : scriptMicro s = .next t) :
    ∃ sc, t = { s with script := sc } ∨ (s.hph = .idle ∧ ∃ i, t = { s with script := sc, hph := hostEntry i }) ∨
      hostMicro { s with script := sc } = .next t := by
  unfold scriptMicro at h
  split at h
  · next hi =>
    unfold startScript at h
    split at h
    · cases h; exact ⟨s.script, .inl rfl⟩
    · next w rest _ =>
      rcases startCommand_cases h with rfl | ⟨i, rfl⟩
      · exact ⟨rest, .inl rfl⟩
      · exact ⟨rest, .inr (.inl ⟨hi, i, rfl⟩)⟩
    · rcases startCommand_cases h with rfl | ⟨i, rfl⟩
      · exact ⟨t.script, .inl rfl⟩
      · exact ⟨s.script, .inr (.inl ⟨hi, i, rfl⟩)⟩
  · obtain ⟨sc, he⟩ := s.endWait_frame
    exact ⟨sc, .inr (.inr (he ▸ h))⟩

/-- A command presented whole, where HOST may begin it, is its word decoded and executed. -/
theorem runTurn_hostOp (w : CmdWord) {s : State} (h : s.hostMayBegin = true) :
    runTurn (.hostOp w) s = runWord (.c w) s := by
  have hf : fetchTurn (.hostOp w) s = some (.c w) := if_pos h
  rw [runTurn, hf]

/-- A command started, where HOST may begin it. -/
theorem runTurn_hostStart (w : CmdWord) {s : State} (h : s.hostMayBegin = true) :
    runTurn (.hostStart w) s = startCommand w s := by
  have hf := ((State.hostMayBegin_iff s).1 h).2.2
  show hostTurn (.hostStart w) s = _
  unfold hostTurn
  rw [hf]
  exact if_pos h

/-- A turn on the script, run whole, where HOST may begin a command. -/
theorem runTurn_scriptOp {s : State} (h : s.hostMayBegin = true) : runTurn .scriptOp s = runScript s := by
  have hf := ((State.hostMayBegin_iff s).1 h).2.2
  show hostTurn .scriptOp s = _
  unfold hostTurn
  rw [hf]
  exact if_pos h

/-- A move on with the script, where HOST is neither stopped nor held. -/
theorem runTurn_scriptMicro {s : State} (hf : s.hfault = none) (hd : s.dph = .idle) :
    runTurn .scriptMicro s = scriptMicro s := by
  show hostTurn .scriptMicro s = _
  unfold hostTurn
  rw [hf]
  exact if_pos hd

/-- The script may be changed under what the moves keep. -/
theorem Kept.script {P : State → Prop} (K : Kept P) {s : State} (sc : List ScriptItem) (hp : P s) :
    P { s with script := sc } := K.turn s sc s.sched s.tick hp

/-- A turn of HOST keeps what the moves keep. -/
theorem Kept.hostTurn {P : State → Prop} (K : Kept P) (tn : Turn) {s t : State} (hp : P s)
    (h : hostTurn tn s = .next t) : P t := by
  unfold Machine.hostTurn at h
  cases hf : s.hfault with
  | some f => rw [hf] at h; cases h
  | none =>
    rw [hf] at h
    cases tn with
    | hostStart w =>
      dsimp only at h
      split at h
      · next hb =>
        rcases startCommand_cases h with rfl | ⟨i, rfl⟩
        · exact hp
        · exact K.begun s i hp hb
      · cases h; exact hp
    | hostMicro =>
      dsimp only at h
      split at h
      · next hd => exact K.host s t hp hd hf h
      · cases h; exact hp
    | scriptOp =>
      dsimp only at h
      split at h
      · obtain ⟨sc, sc', u, rfl, rfl | ⟨i, hu⟩⟩ := runScript_cases h
        · exact K.script sc' (K.script sc hp)
        · exact K.script sc' (K.exec i (K.script sc hp) hu)
      · cases h; exact hp
    | scriptMicro =>
      dsimp only at h
      split at h
      · next hd =>
        obtain ⟨sc, rfl | ⟨hi, i, rfl⟩ | hm⟩ := scriptMicro_cases h
        · exact K.script sc hp
        · exact K.begun _ i (K.script sc hp) ((State.hostMayBegin_iff _).2 ⟨hi, hd, hf⟩)
        · exact K.host _ t (K.script sc hp) hd hf hm
      · cases h; exact hp
    | hostOp w => cases h; exact hp
    | dispStart => cases h; exact hp
    | dispMicro => cases h; exact hp
    | dispOp => cases h; exact hp
    | periph a => cases h; exact hp

/-- A turn of DISP that answers a next state: a dispatch started, a line taken, or nothing. -/
theorem dispTurn_cases {tn : Turn} {s t : State} (h : dispTurn tn s = .next t) :
    (s.dispMayStart = true ∧ t = s.enterDispatch) ∨ (s.dfault = none ∧ t = dispMicro s) ∨ t = s := by
  unfold dispTurn at h
  cases hf : s.dfault with
  | some f => rw [hf] at h; cases h
  | none =>
    rw [hf] at h
    cases tn with
    | dispStart =>
      dsimp only at h
      split at h
      · next hb => cases h; exact .inl ⟨hb, rfl⟩
      · cases h; exact .inr (.inr rfl)
    | dispMicro => cases h; exact .inr (.inl ⟨rfl, rfl⟩)
    | hostStart w => cases h; exact .inr (.inr rfl)
    | hostMicro => cases h; exact .inr (.inr rfl)
    | scriptOp => cases h; exact .inr (.inr rfl)
    | scriptMicro => cases h; exact .inr (.inr rfl)
    | hostOp w => cases h; exact .inr (.inr rfl)
    | dispOp => cases h; exact .inr (.inr rfl)
    | periph a => cases h; exact .inr (.inr rfl)

/-- Every turn keeps what the moves keep. -/
theorem Kept.runTurn {P : State → Prop} (K : Kept P) (tn : Turn) {s t : State} (hp : P s)
    (h : runTurn tn s = .next t) : P t := by
  have host : ∀ tn, Machine.hostTurn tn s = .next t → P t := fun tn h => K.hostTurn tn hp h
  have disp : ∀ tn, dispTurn tn s = .next t → P t := by
    intro tn h
    rcases dispTurn_cases h with ⟨hb, rfl⟩ | ⟨hf, rfl⟩ | rfl
    · exact K.enter s hp hb
    · exact K.disp s hp hf
    · exact hp
  unfold Machine.runTurn at h
  split at h
  · rcases runWord_cases h with rfl | ⟨i, hi⟩
    · exact hp
    · exact K.exec i hp hi
  · cases tn with
    | hostStart w => exact host (.hostStart w) h
    | hostMicro => exact host .hostMicro h
    | hostOp w => exact host (.hostOp w) h
    | scriptOp => exact host .scriptOp h
    | scriptMicro => exact host .scriptMicro h
    | dispStart => exact disp .dispStart h
    | dispMicro => exact disp .dispMicro h
    | dispOp => exact disp .dispOp h
    | periph a => cases h; exact K.perip s a hp

/-- Consuming a turn changes the model's own fields only. -/
theorem State.consume_eq (s : State) : ∃ ts n, s.consume = { s with sched := ts, tick := n } := by
  unfold State.consume
  split
  · next ts _ => exact ⟨ts, s.tick, rfl⟩
  · exact ⟨s.sched, s.tick + 1, rfl⟩

/-- Every step keeps what the moves keep. -/
theorem Kept.step {P : State → Prop} (K : Kept P) {s t : State} (hp : P s) (h : step s = .next t) : P t := by
  obtain ⟨ts, n, he⟩ := s.consume_eq
  refine K.runTurn s.turn (s := s.consume) ?_ h
  rw [he]
  exact K.turn s s.script ts n hp

/-- A relation between the state before and after that every move has from any state on, every step has: the moves of a
relation that is reflexive and transitive compose along a run. -/
theorem step_relates {R : State → State → Prop} {s t : State} (K : Kept (R s)) (h0 : R s s) (h : step s = .next t) :
    R s t := K.step h0 h

end Sys2Proof.Machine
end

