-- ==== Sys2Proof/Laws/Lines.lean ====
section
/-! SUPPORT. The shared lines of the operations, each said once: the gate, the tail, the two sides of DR, the checks of
an access, PERIPH. -/

namespace Sys2Proof.Machine

open Sys2Proof

/-- A closed gate goes past the step and changes nothing else (R181). -/
theorem gateMicro_closed {d : Dir} {e v : Half} (s : State) (h : gateOpen d e v = false) :
    gateMicro d e v s = { s with dph := afterStep d } := by
  rw [gateMicro, if_neg (by rw [h]; decide)]

/-- An open gate on a bound width goes to the first line of that step (R106, R180). -/
theorem gateMicro_bound {d : Dir} {e v : Half} {s : State} {w : FrameWidth} (h : gateOpen d e v = true)
    (hs : (s.desc d).sel = Sel.ofWidth w) : gateMicro d e v s = { s with dph := stepEntry d w } := by
  rw [gateMicro, if_pos h, hs]
  cases w <;> rfl

/-- An open gate on the null reference raises NullStep (R185). -/
theorem gateMicro_null {d : Dir} {e v : Half} {s : State} (h : gateOpen d e v = true)
    (hs : (s.desc d).sel = .none) : gateMicro d e v s = s.raiseDisp (.nullStep d) := by
  rw [gateMicro, if_pos h, hs]
  rfl

/-- An open gate on the reserved code raises ReservedSel (R185). -/
theorem gateMicro_reserved {d : Dir} {e v : Half} {s : State} (h : gateOpen d e v = true)
    (hs : (s.desc d).sel = .reserved) : gateMicro d e v s = s.raiseDisp (.reservedSel d) := by
  rw [gateMicro, if_pos h, hs]
  rfl

/-- A gate writes dph and dfault only. -/
theorem gateMicro_frame (d : Dir) (e v : Half) (s : State) :
    ∃ p f, gateMicro d e v s = { s with dph := p, dfault := f } := by
  unfold gateMicro
  split
  · split
    · exact ⟨_, _, rfl⟩
    · next f _ =>
      cases hf : s.dfault with
      | none => exact ⟨s.dph, some f, by simp [State.raiseDisp, hf]⟩
      | some g => exact ⟨s.dph, s.dfault, by unfold State.raiseDisp; split <;> first | rfl | (rw [hf] at *; contradiction)⟩
  · exact ⟨_, _, rfl⟩

/-- A tail at a count of zero goes to the close (R107). -/
theorem tailMicro_zero {d : Dir} {s : State} (h : (s.desc d).len = 0) :
    tailMicro d s = { s with dph := .close d .k0 } := by
  rw [tailMicro, if_pos h]

/-- A tail at any other count returns (R107). -/
theorem tailMicro_more {d : Dir} {s : State} (h : (s.desc d).len ≠ 0) :
    tailMicro d s = { s with dph := afterStep d } := by
  rw [tailMicro, if_neg h]

/-- The count after a unit is zero exactly when it was one unit (R160). -/
theorem len_sub_eq_zero (l k : Len) : l - k = 0 ↔ l = k := by
  constructor
  · intro h
    have := congrArg (· + k) h
    simpa using this
  · rintro rfl
    simp

/-- After DR_WR the flag TXE is 0, and RXNE and BSY are as before (R135). -/
theorem State.drWr_flags (s : State) (w : FrameWidth) (v : Half) :
    (s.drWr w v).txe = false ∧ (s.drWr w v).rxne = s.rxne ∧ (s.drWr w v).bsy = s.bsy := by
  refine ⟨?_, ?_, ?_⟩
  · exact (getLsbD_clrBit s.sr 1 1 (by decide)).trans (by simp)
  · exact (getLsbD_clrBit s.sr 1 0 (by decide)).trans (by simp [State.rxne])
  · exact (getLsbD_clrBit s.sr 1 7 (by decide)).trans (by simp; rfl)

/-- After DR_RD the flag RXNE is 0, and TXE and BSY are as before (R134). -/
theorem State.drReadEffect_flags (s : State) :
    s.drReadEffect.rxne = false ∧ s.drReadEffect.txe = s.txe ∧ s.drReadEffect.bsy = s.bsy := by
  refine ⟨?_, ?_, ?_⟩
  · exact (getLsbD_clrBit s.sr 0 0 (by decide)).trans (by simp)
  · exact (getLsbD_clrBit s.sr 0 1 (by decide)).trans (by simp [State.txe])
  · exact (getLsbD_clrBit s.sr 0 7 (by decide)).trans (by simp; rfl)

/-- Only a two-byte access is ever split (R74). -/
theorem State.splits_w16 {s : State} {w : FrameWidth} {a : Addr} (h : s.splits w a = true) : w = .w16 := by
  cases w
  · simp [State.splits, misaligned] at h
  · rfl

/-- A byte access never faults for its alignment (R74). -/
@[simp] theorem State.alignFaults_w8 (s : State) (a : Addr) : s.alignFaults .w8 a = false := rfl

/-- The checks of an access read the parameters and the span, nothing else of the state (R46, R74). -/
theorem State.stepAccessFault_congr {s t : State} {d : Dir} (hp : t.par = s.par) (hs : t.span d = s.span d)
    (w : FrameWidth) (a : Addr) : t.stepAccessFault d w a = s.stepAccessFault d w a := by
  unfold State.stepAccessFault State.alignFaults
  rw [hp, hs]

/-- PERIPH writes SR and DR_RX only (R207). -/
theorem periphStep_frame (a : PeriphAct) (s : State) : ∃ x y, periphStep a s = { s with sr := x, drRx := y } := by
  unfold periphStep
  split
  · cases a <;> simp only [periphFree] <;> (try split) <;> exact ⟨_, _, rfl⟩
  · cases a <;> simp only [periphRef]
    · next b => cases b <;> simp only <;> (try split) <;> exact ⟨_, _, rfl⟩
    · next b => cases b <;> simp only <;> (try split) <;> exact ⟨_, _, rfl⟩
    · exact ⟨_, _, rfl⟩
    · split <;> exact ⟨_, _, rfl⟩
    · exact ⟨_, _, rfl⟩

end Sys2Proof.Machine
end

