-- ==== Sys2Proof/Laws/PerInstr.lean ====
section
/-! SUPPORT. For each instruction: its word stands in its row of the opcode table and in no other format (R102, R106,
R107, R108). -/

namespace Sys2Proof.Laws.EncodeRow

open Sys2Proof

/-- Where an instruction's word stands: a row of R102, or its selector code of R106, R107, R108. -/
inductive Place where
  | row (r : Row)
  | step (k : StepWord)
  | tail (k : TailWord)
  | event (k : EventWord)

/-- The place the spec gives each instruction. -/
def place : Instr → Place
  | .init _ => .row ⟨"INIT", 0xFFFFFFF800FFFFFFFF, 0x010000000000000000⟩
  | .submitTx _ _ => .row ⟨"SUBMIT_TX", 0xFF0000000000000000, 0x020000000000000000⟩
  | .submitRx _ _ => .row ⟨"SUBMIT_RX", 0xFF0000000000000000, 0x030000000000000000⟩
  | .flagStatus _ => .row ⟨"FLAG_STATUS", 0xFFFFFFFFFFFFFF0000, 0x040000000000000000⟩
  | .getState _ => .row ⟨"GET_STATE", 0xFFFFFFFFFFFFFFFFFE, 0x050000000000000000⟩
  | .blkTx _ _ => .row ⟨"BLK_TX", 0xFF0000000000000000, 0x060000000000000000⟩
  | .blkRx _ _ => .row ⟨"BLK_RX", 0xFF0000000000000000, 0x070000000000000000⟩
  | .stepTx8 => .step 0b001
  | .stepTx16 => .step 0b010
  | .stepRx8 => .step 0b101
  | .stepRx16 => .step 0b110
  | .closeTx => .tail 0b01
  | .closeRx => .tail 0b11
  | .irqDispatch => .event 1

/-- The instruction's word stands at its place. -/
def Statement (i : Instr) : Prop :=
  match place i, encode i with
  | .row r, .c w => r ∈ commandRows ∧ r.hits w = true
  | .step k, .u w => w = k
  | .tail k, .t w => w = k
  | .event k, .e w => w = k
  | _, _ => False

/-- A command word under a mask, field by field. -/
theorem cmdWord_and (op mo : BitVec 8) (a b ma mb : BitVec 32) :
    cmdWord op a b &&& cmdWord mo ma mb = cmdWord (op &&& mo) (a &&& ma) (b &&& mb) := by
  unfold cmdWord
  exact BitVec.and_append.trans (congrArg (· ++ (b &&& mb)) BitVec.and_append)

/-- A row whose mask and pattern are given by fields hits a word whose fields agree with them. -/
theorem hits_of_fields {r : Row} {op mo : BitVec 8} {a b ma mb pa pb : BitVec 32} {po : BitVec 8}
    (hm : r.mask = cmdWord mo ma mb) (hp : r.pattern = cmdWord po pa pb) (ho : op &&& mo = po) (ha : a &&& ma = pa)
    (hb : b &&& mb = pb) : r.hits (cmdWord op a b) = true := by
  simp only [Row.hits, hm, hp, cmdWord_and, ho, ha, hb, BEq.rfl]

/-- Any operand is admitted under an empty mask. -/
theorem and_zero_field (a : BitVec 32) : a &&& 0 = 0 := by simp

theorem init (c : Cfg) : Statement (.init c) :=
  ⟨by decide, hits_of_fields (mo := 0xFF) (ma := 0x1FFFFF#21 ++ 0#11) (mb := 0xFFFFFFFF) (po := 1) (pa := 0) (pb := 0)
    (by decide) (by decide) (by decide) (by rw [BitVec.and_append]; simp) (by decide)⟩

theorem submitTx (buf : Addr) (len : Len) : Statement (.submitTx buf len) :=
  ⟨by decide, hits_of_fields (mo := 0xFF) (po := 2) (by decide) (by decide) (by decide) (and_zero_field buf)
    (and_zero_field len)⟩

theorem submitRx (buf : Addr) (len : Len) : Statement (.submitRx buf len) :=
  ⟨by decide, hits_of_fields (mo := 0xFF) (po := 3) (by decide) (by decide) (by decide) (and_zero_field buf)
    (and_zero_field len)⟩

theorem flagStatus (m : Half) : Statement (.flagStatus m) :=
  ⟨by decide, hits_of_fields (mo := 0xFF) (ma := 0xFFFFFFFF) (mb := 0xFFFF#16 ++ 0#16) (po := 4) (pa := 0) (pb := 0)
    (by decide) (by decide) (by decide) (by decide) (by rw [BitVec.and_append]; simp)⟩

theorem getState (d : Dir) : Statement (.getState d) :=
  ⟨by decide, hits_of_fields (mo := 0xFF) (ma := 0xFFFFFFFF) (mb := 0x7FFFFFFF#31 ++ 0#1) (po := 5) (pa := 0) (pb := 0)
    (by decide) (by decide) (by decide) (by decide) (by cases d <;> decide)⟩

theorem blkTx (buf : Addr) (len : Len) : Statement (.blkTx buf len) :=
  ⟨by decide, hits_of_fields (mo := 0xFF) (po := 6) (by decide) (by decide) (by decide) (and_zero_field buf)
    (and_zero_field len)⟩

theorem blkRx (buf : Addr) (len : Len) : Statement (.blkRx buf len) :=
  ⟨by decide, hits_of_fields (mo := 0xFF) (po := 7) (by decide) (by decide) (by decide) (and_zero_field buf)
    (and_zero_field len)⟩

theorem stepTx8 : Statement .stepTx8 := rfl
theorem stepTx16 : Statement .stepTx16 := rfl
theorem stepRx8 : Statement .stepRx8 := rfl
theorem stepRx16 : Statement .stepRx16 := rfl
theorem closeTx : Statement .closeTx := rfl
theorem closeRx : Statement .closeRx := rfl
theorem irqDispatch : Statement .irqDispatch := rfl

end Sys2Proof.Laws.EncodeRow
end

