-- ==== Sys2Proof/Tests/Slice0.lean ====
section
/-! SUPPORT. The model's own tests. Expected values are those of spec/95_test_vectors.md (named by vector) and of the
encodings of spec/30_encoding.md; and for each obligation with hypotheses a state and operands that meet them. -/

namespace Sys2Proof.Tests

open Sys2Proof Sys2Proof.Machine

/-! ## Helpers -/

/-- The outcome is a next state with this property. -/
def nextIs (o : Outcome) (p : State → Bool) : Bool :=
  match o with
  | .next t => p t
  | .fault _ => false
  | .refused _ => false

/-- The outcome is this refusal. -/
def refusedAs (o : Outcome) (r : Refusal) : Bool :=
  match o with
  | .next _ => false
  | .fault _ => false
  | .refused q => decide (q = r)

/-- The outcome is this fault. -/
def faultedAs (o : Outcome) (f : Fault) : Bool :=
  match o with
  | .next _ => false
  | .fault g => decide (g = f)
  | .refused _ => false

theorem exists_of_nextIs {o : Outcome} {p : State → Bool} (h : nextIs o p = true) : ∃ t, o = .next t ∧ p t = true := by
  cases o with
  | next t => exact ⟨t, rfl, h⟩
  | fault f => cases h
  | refused r => cases h

/-- The word decodes to the instruction. -/
def decodesTo (w : OpWord) (i : Instr) : Bool :=
  match decode w with
  | .ok j => decide (j = i)
  | .error _ => false

/-- The word is rejected so. -/
def rejectedAs (w : OpWord) (r : Reject) : Bool :=
  match decode w with
  | .ok _ => false
  | .error q => decide (q = r)

/-- The reset state with the reference `InitCR1`, as the vectors take it. -/
def start : State := { State.reset with par := { Params.atReset with initCr1 := .reference } }

/-- The descriptors of the vectors of B4, two bytes left each way, memory and DR_RX as there. -/
def busy (cr2 sr : Half) : State :=
  { start with tx := ⟨2, 0x20000000, .busy, .w8⟩, rx := ⟨2, 0x20000100, .busy, .w8⟩,
               mem := [(0x20000000, 0x77)], drRx := 0x0099, cr2 := cr2, sr := sr }

/-- DISP at the first line of a transmit step, on this descriptor. -/
def atTx (w : FrameWidth) (d : Desc) (m : Memory) : State :=
  { start with tx := d, mem := m, dph := .stepTx w .t0 }

/-- DISP at the first line of a receive step, on this descriptor. -/
def atRx (w : FrameWidth) (d : Desc) (v : Half) : State :=
  { start with rx := d, drRx := v, sr := 0x0003, dph := .stepRx w .t0 }

/-! ## WellFormed: an ill-formed term for each check (R112, R141; vectors B2) -/

theorem test_wf_flag_two_bits : (Instr.flagStatus 0x0003).wellFormed = false := by decide
theorem test_wf_flag_no_bit : (Instr.flagStatus 0x0000).wellFormed = false := by decide
theorem test_wf_flag_other_bit : (Instr.flagStatus 0x0040).wellFormed = false := by decide
theorem test_wf_flag_valid : (Instr.flagStatus 0x0001).wellFormed = true ∧ (Instr.flagStatus 0x0002).wellFormed = true ∧
    (Instr.flagStatus 0x0080).wellFormed = true := by decide

/-! ## Decoding: a word written out from the spec's encodings for every constructor (R102, R104, R106 to R108, B2, B8) -/

theorem test_decode_init :
    decodesTo (.c 0x010000006000000000) (.init ⟨0, 0, 0, 1, 1, 0, 0, 0⟩) = true ∧
    decodesTo (.c 0x01000007FF00000000) (.init ⟨7, 1, 1, 1, 1, 1, 3, 1⟩) = true := by decide
/-- baud 5, cpol 1, busmode 2: bits 2:0 = 101, 4 = 1, 9:8 = 10 (R104). -/
theorem test_decode_init_fields :
    decodesTo (.c 0x010000021500000000) (.init ⟨5, 0, 1, 0, 0, 0, 2, 0⟩) = true := by decide
theorem test_decode_submit_tx : decodesTo (.c 0x022000000000000005) (.submitTx 0x20000000 5) = true := by decide
theorem test_decode_submit_rx : decodesTo (.c 0x03FFFFFFFFFFFFFFFF) (.submitRx 0xFFFFFFFF 0xFFFFFFFF) = true := by decide
theorem test_decode_flag_status :
    decodesTo (.c 0x040000000000000002) (.flagStatus 0x0002) = true ∧
    decodesTo (.c 0x040000000000000001) (.flagStatus 0x0001) = true ∧
    decodesTo (.c 0x040000000000000080) (.flagStatus 0x0080) = true := by decide
theorem test_decode_get_state :
    decodesTo (.c 0x050000000000000000) (.getState .tx) = true ∧
    decodesTo (.c 0x050000000000000001) (.getState .rx) = true := by decide
theorem test_decode_blk_tx : decodesTo (.c 0x062000000000000002) (.blkTx 0x20000000 2) = true := by decide
theorem test_decode_blk_rx : decodesTo (.c 0x072000000000000001) (.blkRx 0x20000000 1) = true := by decide
theorem test_decode_step_tx8 : decodesTo (.u 0b001) .stepTx8 = true := by decide
theorem test_decode_step_tx16 : decodesTo (.u 0b010) .stepTx16 = true := by decide
theorem test_decode_step_rx8 : decodesTo (.u 0b101) .stepRx8 = true := by decide
theorem test_decode_step_rx16 : decodesTo (.u 0b110) .stepRx16 = true := by decide
theorem test_decode_close_tx : decodesTo (.t 0b01) .closeTx = true := by decide
theorem test_decode_close_rx : decodesTo (.t 0b11) .closeRx = true := by decide
theorem test_decode_irq_dispatch : decodesTo (.e 1) .irqDispatch = true := by decide

/-- The reserved words of B8. -/
theorem test_decode_reserved_b8 :
    rejectedAs (.c 0x010000080000000000) (.reservedCommand 0x010000080000000000) = true ∧
    rejectedAs (.c 0x010000006000000001) (.reservedCommand 0x010000006000000001) = true ∧
    rejectedAs (.c 0) (.reservedCommand 0) = true ∧
    rejectedAs (.c 0x080000000000000000) (.reservedCommand 0x080000000000000000) = true ∧
    rejectedAs (.c 0xFF0000000000000000) (.reservedCommand 0xFF0000000000000000) = true := by decide
/-- The rejected words of B2. -/
theorem test_decode_rejected_b2 :
    rejectedAs (.c 0x040000000000000003) (.invalidFlagId 0x0003) = true ∧
    rejectedAs (.c 0x040000000000000000) (.invalidFlagId 0x0000) = true ∧
    rejectedAs (.c 0x040000000000000040) (.invalidFlagId 0x0040) = true ∧
    rejectedAs (.c 0x040000000000010002) (.reservedCommand 0x040000000000010002) = true ∧
    rejectedAs (.c 0x050000000000000002) (.reservedCommand 0x050000000000000002) = true := by decide
/-- The selectors that name no step and no tail, and no request (R106, R107, R108). -/
theorem test_decode_no_operation :
    rejectedAs (.u 0b000) (.nullStep .tx) = true ∧ rejectedAs (.u 0b100) (.nullStep .rx) = true ∧
    rejectedAs (.u 0b011) (.reservedSel .tx) = true ∧ rejectedAs (.u 0b111) (.reservedSel .rx) = true ∧
    rejectedAs (.t 0b00) (.noTail .tx) = true ∧ rejectedAs (.t 0b10) (.noTail .rx) = true ∧
    rejectedAs (.e 0) .noRequest = true := by decide

/-! ## A row's word read and run first after reset -/

theorem test_table_word :
    decodeTableWord 72 0x022000000000000005 = some (.submitTx 0x20000000 5) ∧
    decodeTableWord 3 0b110 = some .stepRx16 ∧ decodeTableWord 2 0b11 = some .closeRx ∧
    decodeTableWord 1 1 = some .irqDispatch ∧ decodeTableWord 72 0 = none := by decide
/-- Vector B5 #1. -/
theorem test_fetch_submit : nextIs (step (start.withFetchWord 72 0x022000000000000005))
    (fun t => decide (t.tx = ⟨5, 0x20000000, .busy, .w8⟩ ∧ t.cr2 = 0x0080 ∧ t.resp = some 0)) = true := by decide
theorem test_fetch_close : nextIs (step ({ start with cr2 := 0x00C0 }.withFetchWord 2 0b01))
    (fun t => decide (t.cr2 = 0x0040)) = true := by decide
theorem test_fetch_reserved : refusedAs (step (start.withFetchWord 72 0x080000000000000000))
    (.reservedCommand 0x080000000000000000) = true := by decide

/-! ## Host commands -/

/-- Vector B9, third row. -/
theorem test_init_reference : nextIs (exec (.init (unpackCfg 0x4FF)) start)
    (fun t => decide (t.cr1 = 0x0ABF ∧ t.cfg.ssm = 1 ∧ t.cfg.busmode = 0 ∧ t.resp = some 0)) = true := by decide
/-- Vector B9, last row. -/
theorem test_init_while_busy : refusedAs (exec (.init (unpackCfg 0x040)) (busy 0 2)) .initWhileBusy = true := by decide
/-- Vector B5 #10: the live register wins over cfg. -/
theorem test_submit_tx_live_dff : nextIs (exec (.submitTx 0x20000000 2) { start with cr1 := 0x0800 })
    (fun t => decide (t.tx = ⟨2, 0x20000000, .busy, .w16⟩ ∧ t.cr2 = 0x0080)) = true := by decide
/-- Vector B5 #7: STRICT_LENGTH. -/
theorem test_submit_tx_strict :
    nextIs (exec (.submitTx 0x20000000 3) { start with cr1 := 0x0800, par := { start.par with strictLength := true } })
      (fun t => decide (t.tx = Desc.closed ∧ t.cr2 = 0 ∧ t.resp = some 2)) = true := by decide
/-- Vector B5 #5: accepted while the transmit direction is BUSY. -/
theorem test_submit_rx_full_duplex :
    nextIs (exec (.submitRx 0x20000100 2) { start with tx := ⟨4, 0x20000001, .busy, .w8⟩, cr2 := 0x0080 })
      (fun t => decide (t.rx = ⟨2, 0x20000100, .busy, .w8⟩ ∧ t.cr2 = 0x00C0 ∧ t.tx.len = 4)) = true := by decide
/-- Vector B5 #4, receive side: busy rejection. -/
theorem test_submit_rx_busy : nextIs (exec (.submitRx 0x20000040 9) (busy 0x0040 2))
    (fun t => decide (t = { busy 0x0040 2 with resp := some 1 })) = true := by decide
/-- Vector B2 #4 and #3. -/
theorem test_flag_status_bsy :
    nextIs (exec (.flagStatus 0x0080) { start with sr := 0x0083 }) (fun t => decide (t.resp = some 1 ∧ t.sr = 0x0083)) = true ∧
    nextIs (exec (.flagStatus 0x0080) start) (fun t => decide (t.resp = some 0)) = true := by decide
/-- Vector B2 #6. -/
theorem test_flag_status_invalid : refusedAs (exec (.flagStatus 0x0003) start) (.invalidFlagId 0x0003) = true := by decide
/-- Vectors B2 #10, #11. -/
theorem test_get_state :
    nextIs (exec (.getState .tx) start) (fun t => decide (t.resp = some 0)) = true ∧
    nextIs (exec (.getState .rx) (busy 0 2)) (fun t => decide (t.resp = some 1)) = true := by decide
/-- R190: one 16-bit frame, little-endian, then DONE. -/
theorem test_blk_tx_one_frame :
    nextIs (exec (.blkTx 0x20000010 2) { start with cr1 := 0x0800, mem := [(0x20000010, 0x34), (0x20000011, 0x12)] })
      (fun t => decide (t.txlog = [.b16 0x1234] ∧ t.sr = 0 ∧ t.resp = some 0 ∧ t.hph = .idle)) = true := by decide
/-- R190: TXE clear, the command waits at B2. -/
theorem test_blk_tx_waits : nextIs (exec (.blkTx 0x20000010 2) { start with sr := 0 })
    (fun t => decide (t.resp = none ∧ t.hph = .blk .tx 0x20000010 2 (.b2 0x20000010 2))) = true := by decide
/-- R191: one byte received and stored, RXNE cleared. -/
theorem test_blk_rx_one_byte : nextIs (exec (.blkRx 0x20000000 1) { start with sr := 0x0003, drRx := 0xABCD })
    (fun t => decide (t.mem = [(0x20000000, 0xCD)] ∧ t.sr = 0x0002 ∧ t.resp = some 0)) = true := by decide
/-- R191, R75: a frame at an odd address, split, at the top of the address space. -/
theorem test_blk_rx_wraps :
    nextIs (exec (.blkRx 0xFFFFFFFF 2) { start with cr1 := 0x0800, sr := 0x0001, drRx := 0xABCD })
      (fun t => decide (t.mem = [(0, 0xAB), (0xFFFFFFFF, 0xCD)] ∧ t.resp = some 0)) = true := by decide

/-! ## Steps and closes -/

/-- Vector B6 #4: the cursor wraps. -/
theorem test_step_tx8_wraps : nextIs (exec .stepTx8 (atTx .w8 ⟨2, 0xFFFFFFFF, .busy, .w8⟩ [(0xFFFFFFFF, 0x01)]))
    (fun t => decide (t.tx = ⟨1, 0, .busy, .w8⟩ ∧ t.txlog = [.b8 0x01] ∧ t.drTx = 0x0001 ∧ t.sr = 0)) = true := by decide
/-- Vector B6 #2: the last byte closes. -/
theorem test_step_tx8_closes :
    nextIs (exec .stepTx8 { atTx .w8 ⟨1, 0x20000004, .busy, .w8⟩ [(0x20000004, 0x55)] with cr2 := 0x0080 })
      (fun t => decide (t.tx = Desc.closed ∧ t.cr2 = 0 ∧ t.txlog = [.b8 0x55])) = true := by decide
/-- Vector B6 #5, big-endian. -/
theorem test_step_tx16_big :
    nextIs (exec .stepTx16 { atTx .w16 ⟨4, 0x20000010, .busy, .w16⟩ [(0x20000010, 0x34), (0x20000011, 0x12)] with
        par := { start.par with byteOrder := .big } })
      (fun t => decide (t.tx = ⟨2, 0x20000012, .busy, .w16⟩ ∧ t.txlog = [.b16 0x3412])) = true := by decide
/-- Vector B6 #9: an odd cursor, split, then the close. -/
theorem test_step_tx16_split :
    nextIs (exec .stepTx16 (atTx .w16 ⟨2, 0x20000011, .busy, .w16⟩ [(0x20000011, 0xAA), (0x20000012, 0xBB)]))
      (fun t => decide (t.tx = Desc.closed ∧ t.txlog = [.b16 0xBBAA])) = true := by decide
/-- Vector B6 #10. -/
theorem test_step_rx8_closes :
    nextIs (exec .stepRx8 { atRx .w8 ⟨1, 0x20000100, .busy, .w8⟩ 0x12A5 with cr2 := 0x0040 })
      (fun t => decide (t.mem = [(0x20000100, 0xA5)] ∧ t.sr = 0x0002 ∧ t.rx = Desc.closed ∧ t.cr2 = 0)) = true := by decide
/-- Vector B6 #12, the little-endian half. -/
theorem test_step_rx16_little : nextIs (exec .stepRx16 (atRx .w16 ⟨4, 0x20000100, .busy, .w16⟩ 0xBEEF))
    (fun t => decide (t.mem = [(0x20000100, 0xEF), (0x20000101, 0xBE)] ∧ t.rx = ⟨2, 0x20000102, .busy, .w16⟩ ∧
      t.sr = 0x0002)) = true := by decide
/-- Vector B6 #14, with TXE set beside: the fault policy; the read of DR has happened. -/
theorem test_step_rx16_misaligned :
    nextIs (exec .stepRx16 { atRx .w16 ⟨2, 0x20000101, .busy, .w16⟩ 0x1234 with par := { start.par with align := .fault } })
      (fun t => decide (t.dfault = some (.misaligned16 (.step .rx) 0x20000101) ∧ t.sr = 0x0002 ∧ t.mem = [] ∧
        t.rx = ⟨2, 0x20000101, .busy, .w16⟩)) = true := by decide
/-- Vector B7 #2. -/
theorem test_close_tx :
    nextIs (exec .closeTx { start with cr2 := 0x00C0, tx := ⟨0, 0x20000014, .busy, .w16⟩, dph := .close .tx .k0 })
      (fun t => decide (t.cr2 = 0x0040 ∧ t.tx = Desc.closed)) = true := by decide
/-- Vector B7 #4: opaque bits kept. -/
theorem test_close_rx :
    nextIs (exec .closeRx { start with cr2 := 0xFF7F, rx := ⟨0, 0x20000104, .busy, .w16⟩, dph := .close .rx .k0 })
      (fun t => decide (t.cr2 = 0xFF3F ∧ t.rx = Desc.closed)) = true := by decide

/-! ## The dispatcher -/

/-- Vector B4 #5: both directions in one dispatch. -/
theorem test_dispatch_both : nextIs (exec .irqDispatch (busy 0x00C0 0x0003))
    (fun t => decide (t.txlog = [.b8 0x77] ∧ t.mem = [(0x20000000, 0x77), (0x20000100, 0x99)] ∧ t.sr = 0 ∧
      t.tx = ⟨1, 0x20000001, .busy, .w8⟩ ∧ t.rx = ⟨1, 0x20000101, .busy, .w8⟩ ∧ t.dph = .idle)) = true := by decide
/-- Vector B4 #7: NullStep, DISP stopped. -/
theorem test_dispatch_null : nextIs (exec .irqDispatch { busy 0x0080 0x0002 with tx := ⟨2, 0x20000000, .busy, .none⟩ })
    (fun t => decide (t.dfault = some (.nullStep .tx) ∧ t.txlog = [] ∧ t.dph = .i2 0x0080 0x0002)) = true := by decide

/-! ## Agents, PERIPH, the request line -/

/-- `WAIT_FREE TX` while TX is BUSY: one poll answers BUSY, the wait stays, no other field moves (R111). -/
theorem test_wait_free_busy : nextIs (step { busy 0x0080 2 with script := [.waitFree .tx], sched := [.scriptOp] })
    (fun t => decide (t = { busy 0x0080 2 with resp := some 1, script := [.waitFree .tx] })) = true := by decide
/-- `WAIT_FREE RX` once RX is FREE: the poll answers FREE and the wait is over. -/
theorem test_wait_free_free : nextIs (step { start with script := [.waitFree .rx, .waitFree .tx], sched := [.scriptOp] })
    (fun t => decide (t = { start with resp := some 0, script := [.waitFree .tx] })) = true := by decide
/-- `TRANSFER` issues the receive submit first (R111). -/
theorem test_transfer_first :
    nextIs (step { start with script := transferScript 0x20000000 0x20000100 1, sched := [.scriptOp] })
      (fun t => decide (t.rx = ⟨1, 0x20000100, .busy, .w8⟩ ∧ t.tx = Desc.closed ∧ t.script.length = 3)) = true := by decide

/-- Program P1 #4: under RefEnv, TXE comes back with BSY (R204). -/
theorem test_periph_ref_txe :
    nextIs (step { start with sr := 0, par := { start.par with env := .ref }, sched := [.periph (.txe true)] })
      (fun t => decide (t.sr = 0x0082)) = true := by decide
/-- A stopped DISP: its turn is answered by its fault (R222). -/
theorem test_stopped_disp : faultedAs (step { start with dfault := some (.nullStep .rx), sched := [.dispMicro] })
    (.nullStep .rx) = true := by decide
/-- Vectors B3. -/
theorem test_irq_b3 :
    State.irq { start with cr2 := 0x0080, sr := 0x0001 } = false ∧ State.irq { start with cr2 := 0x00C0, sr := 0x0080 } = false ∧
    State.irq { start with cr2 := 0x0040, sr := 0x0001 } = true ∧ State.irq { start with cr2 := 0x0080, sr := 0x0002 } = true := by
  decide
/-- Vector B1 #7: a stale value written back. -/
theorem test_rmw_stale : (State.rmwSetWrite { start with cr2 := 0x0000 } .cr2 7 0x0040).cr2 = 0x00C0 := by decide
/-- A byte that becomes 0 leaves the list; the entries stay in order (log 8). -/
theorem test_memory_canonical :
    (State.putByte { start with mem := [(4, 1), (9, 2)] } 4 0).mem = [(9, 2)] ∧
    (State.putByte { start with mem := [(4, 1), (9, 2)] } 6 7).mem = [(4, 1), (6, 7), (9, 2)] := by decide

/-! ## Witnesses: for every obligation with hypotheses, states and operands that meet them, clause by clause -/

theorem test_witness_DecodeOfEncode : (Instr.flagStatus 0x0080).wellFormed = true ∧
    (Instr.submitTx 0xFFFFFFFF 0).wellFormed = true := by decide

theorem test_witness_EncodeOfDecode : ∃ i, decode (.c 0x050000000000000001) = .ok i := ⟨.getState .rx, rfl⟩

theorem test_witness_ReservedExactlyOffTheRows :
    (∃ w : CmdWord, ∀ r ∈ commandRows, r.hits w = false) ∧
    (∃ w : CmdWord, ∃ r ∈ commandRows, ∃ q ∈ commandRows, r.hits w = true ∧ q.hits w = true) :=
  ⟨⟨0x010000080000000000, by decide⟩, ⟨0x01000007FF00000000, commandRows[0], by decide, commandRows[0], by decide, by decide⟩⟩

theorem test_witness_StepRunsDecodedOperation : ∃ (s : State) (w : OpWord) (i : Instr),
    s.fetch = some w ∧ decode w = .ok i :=
  ⟨start.withFetchWord 2 0b11, .t 0b11, .closeRx, by decide, rfl⟩

theorem test_witness_FetchedWords :
    (∃ s : State, s.sched = [.hostOp 0x050000000000000001] ∧ s.hostMayBegin = true) ∧
    (∃ s : State, s.sched = [.dispOp] ∧ s.dispMayStart = true) ∧
    (∀ p ∈ [DispPhase.stepTx .w8 .t0, .stepTx .w16 .t0, .stepRx .w8 .t0, .stepRx .w16 .t0, .close .tx .k0, .close .rx .k0],
      ∃ s : State, s.sched = [.dispOp] ∧ s.dfault = none ∧ s.dph = p) :=
  ⟨⟨{ start with sched := [.hostOp 0x050000000000000001] }, by decide⟩, ⟨{ start with sched := [.dispOp] }, by decide⟩,
    fun p _ => ⟨{ start with sched := [.dispOp], dph := p }, rfl, rfl, rfl⟩⟩

theorem test_witness_RejectedCommandsRefused :
    (∀ t ∈ [Turn.hostOp 0x080000000000000000, .hostStart 0x080000000000000000], ∃ s : State, s.sched = [t] ∧
      s.hostMayBegin = true ∧ ∀ r ∈ commandRows, r.hits 0x080000000000000000 = false) ∧
    (∀ t ∈ [Turn.hostOp 0x040000000000000003, .hostStart 0x040000000000000003], ∃ s : State, s.sched = [t] ∧
      s.hostMayBegin = true ∧ 0x040000000000000003 = cmdWord 4 0 (0#16 ++ (0x0003 : Half)) ∧
      validFlagMask 0x0003 = false) :=
  ⟨fun t _ => ⟨{ start with sched := [t] }, rfl, rfl, by decide⟩,
    fun t _ => ⟨{ start with sched := [t] }, rfl, rfl, by decide, by decide⟩⟩

theorem test_witness_RmwSetTwoLines :
    ((busy 0x0080 0).regRead WReg.cr2.reg).getLsbD 7 = true ∧ (busy 0x0040 0).cr2 = 0x0040 := by decide

theorem test_witness_DrReadClearsRxne : ({ start with drRx := 0xABCD } : State).drRx = 0xABCD := by decide

theorem test_witness_IrqIsTheTwoSources : (busy 0x0080 2).cr2 = ({ start with cr2 := 0x0080 } : State).cr2 ∧
    (busy 0x0080 2).sr = start.sr := by decide

theorem test_witness_MemoryReadAfterWrite :
    (busy 0 0).mem.wf = true ∧ (0xFFFFFFFF + 1 : Addr) ≠ 0xFFFFFFFF ∧ start.par.byteOrder = .little ∧
    ({ start with par := { start.par with byteOrder := .big } } : State).par.byteOrder = .big := by decide

/-- A dispatch that stores: B4 #4. -/
theorem test_witness_StepKeepsMemoryCanonical : ∃ s t : State, s.mem.wf = true ∧ step s = .next t ∧ t.mem ≠ s.mem := by
  obtain ⟨t, h, hp⟩ := exists_of_nextIs (p := fun t => decide (t.mem ≠ (busy 0x0040 3).mem))
    (o := step { busy 0x0040 3 with sched := [.dispOp] }) (by decide)
  exact ⟨_, t, by decide, h, by simpa using hp⟩

theorem test_witness_InitCompletesOrIsRefused :
    (start.hostMayBegin = true ∧ start.tx.state = .free ∧ start.rx.state = .free) ∧
    ((busy 0 0).tx.state = .busy ∧ (busy 0 0).hostMayBegin = true) ∧
    (∃ s : State, s.rx.state = .busy ∧ s.hph = .init ⟨0, 0, 0, 0, 0, 0, 0, 0⟩ .n0) ∧
    start.par.initCr1 = .reference :=
  ⟨by decide, by decide, ⟨{ busy 0 0 with hph := .init ⟨0, 0, 0, 0, 0, 0, 0, 0⟩ .n0 }, by decide⟩, rfl⟩

/-- 16-bit frames with an even length under STRICT_LENGTH; an odd length without it. -/
theorem test_witness_SubmitAccepted :
    (∃ s : State, s.hostMayBegin = true ∧ s.par.strictLength = true ∧ s.cr1.getLsbD 11 = true ∧
      (2 : Len).getLsbD 0 = false ∧ s.tx.state = .free ∧ s.rx.state = .free) ∧
    (∃ s : State, s.hostMayBegin = true ∧ s.par.strictLength = false ∧ s.cr1.getLsbD 11 = true ∧
      (3 : Len).getLsbD 0 = true ∧ s.tx.state = .free ∧ s.rx.state = .free) :=
  ⟨⟨{ start with cr1 := 0x0800, par := { start.par with strictLength := true } }, by decide⟩,
    ⟨{ start with cr1 := 0x0800 }, by decide⟩⟩

theorem test_witness_BusySubmitRejected :
    ((busy 0 0).hostMayBegin = true ∧ (busy 0 0).tx.state = .busy ∧ (busy 0 0).rx.state = .busy) ∧
    (∃ s : State, s.hostMayBegin = true ∧ s.par.strictLength = false ∧ s.tx.state = .free ∧ s.rx.state = .busy) ∧
    (∃ s : State, s.hostMayBegin = true ∧ s.par.strictLength = false ∧ s.rx.state = .free ∧ s.tx.state = .busy) :=
  ⟨by decide, ⟨{ busy 0 0 with tx := Desc.closed }, by decide⟩, ⟨{ busy 0 0 with rx := Desc.closed }, by decide⟩⟩

theorem test_witness_StrictLengthRejectsOdd :
    (∃ s : State, s.hostMayBegin = true ∧ s.par.strictLength = true ∧ s.cr1.getLsbD 11 = true ∧
      (1 : Len).getLsbD 0 = true ∧ s.tx.state = .free ∧ s.rx.state = .free) ∧
    (start.hostMayBegin = true ∧ start.par.strictLength = false ∧
      nextIs (exec (.submitTx 0 1) start) (fun _ => true) = true ∧
      nextIs (exec (.submitRx 0 1) start) (fun _ => true) = true) :=
  ⟨⟨{ start with cr1 := 0x0800, par := { start.par with strictLength := true } }, by decide⟩, by decide⟩

theorem test_witness_FlagStatusAnswersOrIsRefused : start.hostMayBegin = true ∧
    ((0x0003 : Half) ≠ 0x0002 ∧ (0x0003 : Half) ≠ 0x0001 ∧ (0x0003 : Half) ≠ 0x0080) := by decide

theorem test_witness_GetStateAnswers : (busy 0 0).hostMayBegin = true := by decide

/-- 8-bit and 16-bit frames. -/
theorem test_witness_BlkTxCompletes :
    (start.hostMayBegin = true ∧ start.bsy = false ∧ start.txe = true ∧ unitBytes (dffWidth start.cr1) = 1 ∧
      start.alignFaults (dffWidth start.cr1) 0xFFFFFFFF = false) ∧
    (∃ s : State, s.hostMayBegin = true ∧ s.bsy = false ∧ s.txe = true ∧ unitBytes (dffWidth s.cr1) = 2 ∧
      s.alignFaults (dffWidth s.cr1) 0x20000001 = false) :=
  ⟨by decide, { start with cr1 := 0x0800 }, by decide⟩

theorem test_witness_BlkTxWaits :
    (∃ s : State, s.hostMayBegin = true ∧ s.bsy = true ∧ s.txe = true ∧ unitBytes (dffWidth s.cr1) = 1 ∧
      s.alignFaults (dffWidth s.cr1) 0 = false) ∧
    (∃ s : State, s.hostMayBegin = true ∧ s.txe = false) ∧
    (start.hostMayBegin = true ∧ start.txe = true ∧ start.alignFaults (dffWidth start.cr1) 0 = false ∧
      (3 : Len) ≠ unitBytes (dffWidth start.cr1) ∧ (3 : Len) ≠ 0) :=
  ⟨⟨{ start with sr := 0x0082 }, by decide⟩, ⟨{ start with sr := 0 }, by decide⟩, by decide⟩

theorem test_witness_BlkRxCompletes :
    (∃ s : State, s.hostMayBegin = true ∧ s.rxne = true ∧ unitBytes (dffWidth s.cr1) = 1 ∧
      s.alignFaults (dffWidth s.cr1) 0 = false) ∧
    (∃ s : State, s.hostMayBegin = true ∧ s.rxne = true ∧ unitBytes (dffWidth s.cr1) = 2 ∧
      s.alignFaults (dffWidth s.cr1) 0xFFFFFFFF = false) :=
  ⟨⟨{ start with sr := 1 }, by decide⟩, ⟨{ start with sr := 1, cr1 := 0x0800 }, by decide⟩⟩

theorem test_witness_BlkRxWaits :
    (start.hostMayBegin = true ∧ (1 : Len) ≠ 0 ∧ start.rxne = false) ∧
    (∃ s : State, s.hostMayBegin = true ∧ (3 : Len) ≠ 0 ∧ s.rxne = true ∧ s.alignFaults (dffWidth s.cr1) 2 = false ∧
      (3 : Len) ≠ unitBytes (dffWidth s.cr1)) :=
  ⟨by decide, { start with sr := 1, cr1 := 0x0800 }, by decide⟩

theorem test_witness_BlkMisalignedStops : ∃ s : State, s.hostMayBegin = true ∧ (2 : Len) ≠ 0 ∧ s.cr1.getLsbD 11 = true ∧
    (0x20000001 : Addr).getLsbD 0 = true ∧ s.par.align = .fault ∧ s.txe = true ∧ s.rxne = true :=
  ⟨{ start with cr1 := 0x0800, sr := 3, par := { start.par with align := .fault } }, by decide⟩

theorem test_witness_BlkSpinsWithoutTheFlag :
    (∃ s : State, s.hph = .blk .tx 4 2 (.b2 4 2) ∧ s.txe = false) ∧
    (∃ s : State, s.hph = .blk .tx 4 2 .b7 ∧ s.bsy = true) ∧
    (∃ s : State, s.hph = .blk .rx 4 2 (.b2 4 2) ∧ s.rxne = false) :=
  ⟨⟨{ start with hph := .blk .tx 4 2 (.b2 4 2), sr := 0 }, by decide⟩,
    ⟨{ start with hph := .blk .tx 4 2 .b7, sr := 0x0080 }, by decide⟩,
    ⟨{ start with hph := .blk .rx 4 2 (.b2 4 2) }, by decide⟩⟩

theorem test_witness_CommandsWaitForHost :
    ({ start with dph := .i0 } : State).hostMayBegin = false ∧ validFlagMask 0x0002 = true := by decide

/-- The unit that closes and one that does not; the top of the address space; a split access. -/
theorem test_witness_StepTxCompletes :
    (∀ s ∈ [atTx .w8 ⟨1, 0xFFFFFFFF, .busy, .w8⟩ [], atTx .w8 ⟨0, 0xFFFFFFFF, .busy, .w8⟩ []],
      s.dfault = none ∧ s.dph = .stepTx .w8 .t0 ∧ s.stepAccessFault .tx .w8 s.tx.cur = none) ∧
    (∀ s ∈ [atTx .w16 ⟨2, 0xFFFFFFFF, .busy, .w16⟩ [], atTx .w16 ⟨1, 0xFFFFFFFE, .busy, .w16⟩ []],
      s.dfault = none ∧ s.dph = .stepTx .w16 .t0 ∧ s.stepAccessFault .tx .w16 s.tx.cur = none) := by decide

theorem test_witness_StepRxCompletes :
    (∀ s ∈ [atRx .w8 ⟨1, 0xFFFFFFFF, .busy, .w8⟩ 0xABCD, atRx .w8 ⟨0, 0, .busy, .w8⟩ 0xABCD],
      s.mem.wf = true ∧ s.dfault = none ∧ s.dph = .stepRx .w8 .t0 ∧ s.stepAccessFault .rx .w8 s.rx.cur = none) ∧
    (∀ s ∈ [atRx .w16 ⟨2, 0xFFFFFFFF, .busy, .w16⟩ 0xABCD, atRx .w16 ⟨1, 0, .busy, .w16⟩ 0xABCD],
      s.mem.wf = true ∧ s.dfault = none ∧ s.dph = .stepRx .w16 .t0 ∧ s.stepAccessFault .rx .w16 s.rx.cur = none) := by
  decide

theorem test_witness_StepMisalignedStops :
    (∃ s : State, s.dfault = none ∧ s.par.align = .fault ∧ s.dph = .stepTx .w16 .t0 ∧ s.tx.cur.getLsbD 0 = true) ∧
    (∃ s : State, s.dfault = none ∧ s.par.align = .fault ∧ s.dph = .stepRx .w16 .t0 ∧ s.rx.cur.getLsbD 0 = true) :=
  ⟨⟨{ atTx .w16 ⟨2, 1, .busy, .w16⟩ [] with par := { start.par with align := .fault } }, by decide⟩,
    ⟨{ atRx .w16 ⟨2, 0xFFFFFFFF, .busy, .w16⟩ 0 with par := { start.par with align := .fault } }, by decide⟩⟩

/-- At the first byte past a span; a two-byte unit whose second byte is past it; a span that ends at the top of the
address space, where the lowest byte outside is byte 0. -/
theorem test_witness_StepOutOfBoundsStops :
    (∃ s : State, s.dfault = none ∧ s.par.boundsCheck = true ∧ s.dph = .stepTx .w8 .t0 ∧
      outOfBounds s.txSpan .w8 s.tx.cur = some 0x20000002) ∧
    (∃ s : State, s.dfault = none ∧ s.par.boundsCheck = true ∧ s.dph = .stepTx .w16 .t0 ∧
      s.alignFaults .w16 s.tx.cur = false ∧ outOfBounds s.txSpan .w16 s.tx.cur = some 0x20000003) ∧
    (∃ s : State, s.dfault = none ∧ s.par.boundsCheck = true ∧ s.dph = .stepRx .w8 .t0 ∧
      outOfBounds s.rxSpan .w8 s.rx.cur = some 0x20000100) ∧
    (∃ s : State, s.dfault = none ∧ s.par.boundsCheck = true ∧ s.dph = .stepRx .w16 .t0 ∧
      s.alignFaults .w16 s.rx.cur = false ∧ outOfBounds s.rxSpan .w16 s.rx.cur = some 0) ∧
    (0xFFFFFFFE : Addr).toNat + (2 : Len).toNat ≤ 2 ^ 32 ∧
    outOfBounds (some ⟨0xFFFFFFFE, 2⟩) .w16 0xFFFFFFFF = some 0 ∧ outOfBounds none .w16 0xFFFFFFFF = some 0 ∧
    outOfBounds (some ⟨0x20000000, 3⟩) .w16 0x20000002 = some 0x20000003 :=
  ⟨⟨{ atTx .w8 ⟨0, 0x20000002, .busy, .w8⟩ [] with
        txSpan := some ⟨0x20000000, 2⟩, par := { start.par with boundsCheck := true } }, by decide⟩,
    ⟨{ atTx .w16 ⟨1, 0x20000002, .busy, .w16⟩ [] with
        txSpan := some ⟨0x20000000, 3⟩, par := { start.par with boundsCheck := true } }, by decide⟩,
    ⟨{ atRx .w8 ⟨0, 0x20000100, .busy, .w8⟩ 0 with
        rxSpan := some ⟨0x20000100, 0⟩, par := { start.par with boundsCheck := true } }, by decide⟩,
    ⟨{ atRx .w16 ⟨1, 0xFFFFFFFF, .busy, .w16⟩ 0 with
        rxSpan := some ⟨0xFFFFFFFE, 2⟩, par := { start.par with boundsCheck := true } }, by decide⟩,
    by decide, by decide, by decide, by decide⟩

theorem test_witness_CloseCompletes :
    (∃ s : State, s.dfault = none ∧ s.dph = .close .tx .k0) ∧ (∃ s : State, s.dfault = none ∧ s.dph = .close .rx .k0) :=
  ⟨⟨{ busy 0x00C0 0 with dph := .close .tx .k0 }, by decide⟩, ⟨{ busy 0x00C0 0 with dph := .close .rx .k0 }, by decide⟩⟩

theorem test_witness_StepsRunOnlyWhenInvoked : start.dph ≠ .stepTx .w8 .t0 ∧ start.dph ≠ .stepTx .w16 .t0 ∧
    start.dph ≠ .stepRx .w8 .t0 ∧ start.dph ≠ .stepRx .w16 .t0 ∧ start.dph ≠ .close .tx .k0 ∧ start.dph ≠ .close .rx .k0 := by
  decide

/-- Count 1, where the count wraps: B6 #7 and its receive side. -/
theorem test_witness_OddCountNeverCloses :
    (∃ s t : State, s.dfault = none ∧ s.dph = .stepTx .w16 .t0 ∧ s.tx.len.getLsbD 0 = true ∧
      exec .stepTx16 s = .next t ∧ t.tx.len = 0xFFFFFFFF) ∧
    (∃ s t : State, s.dfault = none ∧ s.dph = .stepRx .w16 .t0 ∧ s.rx.len.getLsbD 0 = true ∧
      exec .stepRx16 s = .next t ∧ t.rx.len = 0xFFFFFFFF) := by
  constructor
  · obtain ⟨t, h, hp⟩ := exists_of_nextIs (p := fun t => decide (t.tx.len = 0xFFFFFFFF))
      (o := exec .stepTx16 (atTx .w16 ⟨1, 0x20000052, .busy, .w16⟩ [])) (by decide)
    exact ⟨_, t, rfl, rfl, rfl, h, by simpa using hp⟩
  · obtain ⟨t, h, hp⟩ := exists_of_nextIs (p := fun t => decide (t.rx.len = 0xFFFFFFFF))
      (o := exec .stepRx16 (atRx .w16 ⟨1, 0x20000052, .busy, .w16⟩ 0)) (by decide)
    exact ⟨_, t, rfl, rfl, rfl, h, by simpa using hp⟩

theorem test_witness_GateNeedsBoth :
    (∃ s : State, s.dph = .i2 0x0080 0x0002 ∧ s.tx.sel.bound = true) ∧
    (∃ s : State, s.dph = .i5 0x0040 0x0001 ∧ s.rx.sel.bound = true) :=
  ⟨⟨{ busy 0x0080 2 with dph := .i2 0x0080 0x0002 }, by decide⟩,
    ⟨{ busy 0x0040 1 with dph := .i5 0x0040 0x0001 }, by decide⟩⟩

/-- Flags set with enables clear, and enables set with flags clear. -/
theorem test_witness_ClosedGatesChangeNothing : ∀ s ∈ [busy 0x0000 0x0003, busy 0x00C0 0x0000],
    s.dispMayStart = true ∧ gateOpen .tx s.cr2 s.sr = false ∧ gateOpen .rx s.cr2 s.sr = false := by decide

/-- The transmit gate closed; open with each width; and the receive gate then closed, open with each width, not reached, and open with no step bound. -/
theorem test_witness_DispatchServesTxThenRx :
    (∃ s m : State, s.dispMayStart = true ∧ gateOpen .tx s.cr2 s.sr = false ∧ m = { s with dph := .i3 } ∧
      m.dfault = none ∧ gateOpen .rx m.cr2 m.sr = true ∧ m.rx.sel = .w8) ∧
    (∃ s m : State, s.dispMayStart = true ∧ gateOpen .tx s.cr2 s.sr = true ∧ s.tx.sel = .w8 ∧
      exec .stepTx8 { s with dph := .stepTx .w8 .t0 } = .next m ∧ m.dfault = none ∧
      gateOpen .rx m.cr2 m.sr = false) ∧
    (∃ s m : State, s.dispMayStart = true ∧ gateOpen .tx s.cr2 s.sr = true ∧ s.tx.sel = .w16 ∧
      exec .stepTx16 { s with dph := .stepTx .w16 .t0 } = .next m ∧ m.dfault = none ∧
      gateOpen .rx m.cr2 m.sr = true ∧ m.rx.sel = .w16) ∧
    (∃ s m : State, s.dispMayStart = true ∧ gateOpen .tx s.cr2 s.sr = true ∧ s.tx.sel = .w16 ∧
      exec .stepTx16 { s with dph := .stepTx .w16 .t0 } = .next m ∧ m.dfault ≠ none) ∧
    (∀ x ∈ [Sel.none, .reserved], ∃ s m : State, s.dispMayStart = true ∧ gateOpen .tx s.cr2 s.sr = true ∧
      s.tx.sel = .w8 ∧ exec .stepTx8 { s with dph := .stepTx .w8 .t0 } = .next m ∧ m.dfault = none ∧
      gateOpen .rx m.cr2 m.sr = true ∧ m.rx.sel = x) := by
  refine ⟨⟨busy 0x0040 3, _, by decide, by decide, rfl, by decide, by decide, by decide⟩, ?_, ?_, ?_, ?_⟩
  · obtain ⟨m, h, hp⟩ := exists_of_nextIs (p := fun m => decide (m.dfault = none ∧ gateOpen .rx m.cr2 m.sr = false))
      (o := exec .stepTx8 { busy 0x00C0 2 with dph := .stepTx .w8 .t0 }) (by decide)
    have hq := of_decide_eq_true hp
    exact ⟨busy 0x00C0 2, m, by decide, by decide, by decide, h, hq⟩
  · obtain ⟨m, h, hp⟩ := exists_of_nextIs
      (p := fun m => decide (m.dfault = none ∧ gateOpen .rx m.cr2 m.sr = true ∧ m.rx.sel = .w16))
      (o := exec .stepTx16 { busy 0x00C0 3 with
        tx := ⟨2, 0x20000010, .busy, .w16⟩, rx := ⟨2, 0x20000100, .busy, .w16⟩, dph := .stepTx .w16 .t0 }) (by decide)
    have hq := of_decide_eq_true hp
    exact ⟨{ busy 0x00C0 3 with tx := ⟨2, 0x20000010, .busy, .w16⟩, rx := ⟨2, 0x20000100, .busy, .w16⟩ }, m,
      by decide, by decide, by decide, h, hq⟩
  · let s : State := { busy 0x0080 2 with
      tx := ⟨2, 0x20000011, .busy, .w16⟩, par := { start.par with align := .fault } }
    obtain ⟨m, h, hp⟩ := exists_of_nextIs (p := fun m => decide (m.dfault ≠ none))
      (o := exec .stepTx16 { s with dph := .stepTx .w16 .t0 }) (by decide)
    exact ⟨s, m, by decide, by decide, by decide, h, of_decide_eq_true hp⟩
  · intro x hx
    simp only [List.mem_cons, List.not_mem_nil, or_false] at hx
    rcases hx with rfl | rfl
    · let s : State := { busy 0x00C0 3 with rx := Desc.closed }
      obtain ⟨m, h, hp⟩ := exists_of_nextIs
        (p := fun m => decide (m.dfault = none ∧ gateOpen .rx m.cr2 m.sr = true ∧ m.rx.sel = .none))
        (o := exec .stepTx8 { s with dph := .stepTx .w8 .t0 }) (by decide)
      exact ⟨s, m, by decide, by decide, by decide, h, of_decide_eq_true hp⟩
    · let s : State := { busy 0x00C0 3 with rx := ⟨0, 0, .free, .reserved⟩ }
      obtain ⟨m, h, hp⟩ := exists_of_nextIs
        (p := fun m => decide (m.dfault = none ∧ gateOpen .rx m.cr2 m.sr = true ∧ m.rx.sel = .reserved))
        (o := exec .stepTx8 { s with dph := .stepTx .w8 .t0 }) (by decide)
      exact ⟨s, m, by decide, by decide, by decide, h, of_decide_eq_true hp⟩

theorem test_witness_NullStepStops :
    (∀ x ∈ [Sel.none, .reserved],
      (∃ s : State, s.dfault = none ∧ s.dph = .i2 0x0080 0x0002 ∧ gateOpen .tx 0x0080 0x0002 = true ∧ s.tx.sel = x) ∧
      (∃ s : State, s.dfault = none ∧ s.dph = .i5 0x0040 0x0001 ∧ gateOpen .rx 0x0040 0x0001 = true ∧ s.rx.sel = x)) ∧
    (∀ s ∈ [{ busy 0x0080 2 with tx := Desc.closed }, { busy 0x0080 2 with tx := ⟨0, 0, .free, .reserved⟩ }],
      s.dispMayStart = true ∧ gateOpen .tx s.cr2 s.sr = true ∧ (s.tx.sel = .none ∨ s.tx.sel = .reserved)) ∧
    (∀ s ∈ [{ busy 0x0040 3 with rx := Desc.closed }, { busy 0x0040 3 with rx := ⟨0, 0, .free, .reserved⟩ }],
      s.dispMayStart = true ∧ gateOpen .tx s.cr2 s.sr = false ∧ gateOpen .rx s.cr2 s.sr = true ∧
        (s.rx.sel = .none ∨ s.rx.sel = .reserved)) :=
  ⟨fun x _ => ⟨⟨{ start with dph := .i2 0x0080 0x0002, tx := ⟨0, 0, .free, x⟩ }, rfl, rfl, by decide, rfl⟩,
    ⟨{ start with dph := .i5 0x0040 0x0001, rx := ⟨0, 0, .free, x⟩ }, rfl, rfl, by decide, rfl⟩⟩, by decide, by decide⟩

theorem test_witness_DispatchRunsToCompletion : (busy 0x00C0 3).dispMayStart = true ∧
    nextIs (exec .irqDispatch (busy 0x00C0 3)) (fun t => decide (t.dfault = none)) = true := by decide

theorem test_witness_EntryAndReturnChangeOnlyDph : start.dispMayStart = true ∧
    (∃ s : State, s.dph = .i5 0x0040 0x0002 ∧ s.dfault = none ∧ gateOpen .rx 0x0040 0x0002 = false) :=
  ⟨by decide, { start with dph := .i5 0x0040 0x0002 }, by decide⟩

theorem test_witness_ContextsExcludeEachOther :
    (∃ s : State, s.dph ≠ .idle ∧ s.hfault = none) ∧
    (∃ s : State, s.par.atomicHost = true ∧ s.hph ≠ .idle ∧ s.dph = .idle ∧ s.dfault = none) :=
  ⟨⟨{ start with dph := .i3 }, by decide⟩,
    ⟨{ start with par := { start.par with atomicHost := true }, hph := .getState .tx .g0 }, by decide⟩⟩

theorem test_witness_StoppedAgentTakesNoStep : ∃ s : State, s.hfault = some (.misaligned16 .blkTx 1) ∧
    s.dfault = some (.nullStep .rx) :=
  ⟨{ start with hfault := some (.misaligned16 .blkTx 1), dfault := some (.nullStep .rx) }, by decide⟩

theorem test_witness_ParametersNeverChange : ∃ s t : State, step s = .next t := by
  obtain ⟨t, h, -⟩ := exists_of_nextIs (p := fun _ => true)
    (o := step (start.withFetchWord 72 0x022000000000000005)) (by decide)
  exact ⟨_, t, h⟩

theorem test_witness_BusStateHandOff :
    (∃ s t : State, hostMicro s = .next t ∧ (s.desc .tx).state = .busy) ∧ (start.desc .rx).state = .free :=
  ⟨⟨{ busy 0 0 with hph := .submit .tx 0 1 .s0 }, _, rfl, rfl⟩, rfl⟩

/-- Line B4 of a blocking receive clears RXNE; line T1 of a transmit step clears TXE; a line of HOST other than N1. -/
theorem test_witness_BlockWritesToSrAndCr1 :
    (∃ s t : State, hostMicro s = .next t ∧ t.sr ≠ s.sr ∧ ∀ c, s.hph ≠ .init c .n1) ∧
    (∃ s t : State, dispMicro s = t ∧ t.sr ≠ s.sr) :=
  ⟨⟨{ start with sr := 1, hph := .blk .rx 0 1 (.b4 0 1 .w8) }, _, rfl, by decide, by simp⟩,
    ⟨{ start with dph := .stepTx .w8 (.t1 5) }, _, rfl, by decide⟩⟩

/-- B4 #3: a dispatch that logs. -/
theorem test_witness_TxlogOnlyGrows : ∃ s t : State, step s = .next t ∧ t.txlog ≠ s.txlog := by
  obtain ⟨t, h, hp⟩ := exists_of_nextIs (p := fun t => decide (t.txlog ≠ []))
    (o := step { busy 0x0080 3 with sched := [.dispOp] }) (by decide)
  exact ⟨_, t, h, of_decide_eq_true hp⟩

theorem test_witness_DirectionsIndependent :
    (∀ p ∈ [DispPhase.stepTx .w16 .t4, .close .tx .k5], serving .tx p = true) ∧
    (∀ p ∈ [DispPhase.stepRx .w8 .t2, .close .rx .k2], serving .rx p = true) := by decide

/-- A submit, and a blocking transmit that waits at B7. -/
theorem test_witness_WholeCommandIsItsLines : ∀ w ∈ [(0x022000000000000005 : CmdWord), 0x062000000000000000],
    ∃ (s t : State) (i : Instr), s.hostMayBegin = true ∧ decode (.c w) = .ok i ∧
      exec i { s with sched := [.dispOp] } = .next t := by
  intro w hw
  simp only [List.mem_cons, List.not_mem_nil, or_false] at hw
  rcases hw with rfl | rfl
  · obtain ⟨t, h, -⟩ := exists_of_nextIs (p := fun _ => true)
      (o := exec (.submitTx 0x20000000 5) { start with sched := [.dispOp] }) (by decide)
    exact ⟨start, t, _, by decide, rfl, h⟩
  · obtain ⟨t, h, -⟩ := exists_of_nextIs (p := fun _ => true)
      (o := exec (.blkTx 0x20000000 0) { start with sr := 0x0080, sched := [.dispOp] }) (by decide)
    exact ⟨{ start with sr := 0x0080 }, t, _, by decide, rfl, h⟩

/-- Both directions served and closed: a dispatch of the most lines. -/
theorem test_witness_WholeDispatchIsItsLines : ∃ s t : State, s.dispMayStart = true ∧
    exec .irqDispatch { s with sched := [] } = .next t ∧ t.tx = Desc.closed ∧ t.rx = Desc.closed := by
  let s : State := { busy 0x00C0 3 with tx := ⟨2, 0x20000001, .busy, .w16⟩, rx := ⟨2, 0x20000101, .busy, .w16⟩ }
  obtain ⟨t, h, hp⟩ := exists_of_nextIs (p := fun t => decide (t.tx = Desc.closed ∧ t.rx = Desc.closed))
    (o := exec .irqDispatch { s with sched := [] }) (by decide)
  exact ⟨s, t, by decide, h, of_decide_eq_true hp⟩

/-- A submit at S3, its cursor and count written, that steps to S4. -/
theorem test_witness_StepKeepsClosedInv : ∃ s t : State, ClosedInv s ∧ step s = .next t ∧ t.rx.state = .busy := by
  let s : State := { start with
    rx := ⟨3, 0x20000100, .free, .none⟩, hph := .submit .rx 0x20000100 3 .s3, sched := [.hostMicro] }
  refine ⟨s, _, ⟨?_, ?_, ?_, ?_⟩, rfl, rfl⟩
  · intro d h; cases d <;> exact absurd rfl h
  · intro d h; cases d <;> rfl
  · intro d; cases d
    · trivial
    · exact ⟨rfl, rfl⟩
  · intro d
    cases d <;> exact ⟨(by intro h; cases h), (by intro h; cases h), (by intro h; cases h), by intro h; cases h⟩

/-- An armed transmit at I1 of a dispatch. -/
theorem test_witness_StepKeepsArmInv : ∃ s t : State, ArmInv s ∧ s.enabled .tx = true ∧ step s = .next t := by
  let s : State := { busy 0x0080 2 with
    par := { start.par with atomicHost := true }, dph := .i1 0x0080, sched := [.dispMicro] }
  refine ⟨s, _, ⟨rfl, .inl rfl, ?_, trivial, rfl, trivial⟩, by decide, rfl⟩
  intro d _
  cases d <;> exact ⟨rfl, rfl⟩

theorem test_witness_StaleArmingReachesNullStep :
    (∃ s : State, s.hph = .submit .tx 0x20000000 1 (.s7 0x0040) ∧
      s.dph = .idle ∧ s.dfault = none ∧ s.rx = Desc.closed ∧ (0x0040 : Half).getLsbD 6 = true ∧ s.rxne = true ∧
      s.txe = false) ∧
    (∃ s : State, s.hph = .submit .rx 0x20000100 1 (.s7 0x0080) ∧
      s.dph = .idle ∧ s.dfault = none ∧ s.tx = Desc.closed ∧ (0x0080 : Half).getLsbD 7 = true ∧ s.txe = true) :=
  ⟨⟨{ start with tx := ⟨1, 0x20000000, .busy, .w8⟩, hph := .submit .tx 0x20000000 1 (.s7 0x0040), sr := 1 }, by decide⟩,
    ⟨{ start with rx := ⟨1, 0x20000100, .busy, .w8⟩, hph := .submit .rx 0x20000100 1 (.s7 0x0080) }, by decide⟩⟩

/-- Both enable bits 0 and every other bit of CR2 set. -/
theorem test_witness_ResetMeetsInvariants : (0xFF3F : Half).getLsbD 7 = false ∧ (0xFF3F : Half).getLsbD 6 = false := by
  decide

theorem test_witness_ScriptRunsPseudoOperations :
    (∃ s : State, s.hostMayBegin = true ∧ s.script = [.command 0x022000000000000005]) ∧
    (∃ s : State, s.hostMayBegin = true ∧ s.script = [.waitFree .tx] ∧ (s.desc .tx).state = .free) ∧
    (∃ s : State, s.hostMayBegin = true ∧ s.script = [.waitFree .rx] ∧ (s.desc .rx).state = .busy) ∧
    (∀ b ∈ [BusState.free, .busy], ∃ s : State, s.dph = .idle ∧ s.hfault = none ∧ s.hph = .getState .tx (.g1 b) ∧
      s.script = [.waitFree .tx]) ∧
    (∃ s : State, s.hph ≠ .idle ∧ ∀ d, s.hph ≠ .getState d (.g1 .free)) :=
  ⟨⟨{ start with script := [.command 0x022000000000000005] }, by decide⟩,
    ⟨{ start with script := [.waitFree .tx] }, by decide⟩, ⟨{ busy 0 0 with script := [.waitFree .rx] }, by decide⟩,
    fun b _ => ⟨{ start with hph := .getState .tx (.g1 b), script := [.waitFree .tx] }, rfl, rfl, rfl, rfl⟩,
    ⟨{ start with hph := .getState .rx .g0 }, by decide, by simp⟩⟩

/-- Two 16-bit frames that end at the top of the address space, after one of them and after both, the receive direction
armed with no frame there. -/
theorem test_witness_TransmitTerminates : ∀ k ∈ [1, 2], ∃ s : State, s.dispMayStart = true ∧ s.enabled .tx = true ∧
    gateOpen .rx s.cr2 s.sr = false ∧ s.tx.state = .busy ∧ s.tx.sel = Sel.ofWidth .w16 ∧ 0 < 2 ∧
    s.tx.len.toNat = 2 * (unitBytes .w16).toNat ∧
    (∀ j < 2, s.stepAccessFault .tx .w16 (s.tx.cur + BitVec.ofNat 32 (j * (unitBytes .w16).toNat)) = none) ∧ k ≤ 2 :=
  fun k hk => ⟨{ busy 0x00C0 0 with tx := ⟨4, 0xFFFFFFFC, .busy, .w16⟩ }, by decide, by decide, by decide, by decide,
    by decide, by decide, by decide, by decide, by revert k; decide⟩

/-- Two bytes, the second across the wrap of the address space, in each environment, the transmit direction armed. -/
theorem test_witness_ReceiveTerminates :
    ∀ s ∈ [{ busy 0x00C0 0 with rx := ⟨2, 0xFFFFFFFF, .busy, .w8⟩ },
        { busy 0x00C0 0 with rx := ⟨2, 0xFFFFFFFF, .busy, .w8⟩, par := { start.par with env := .ref } }],
      s.mem.wf = true ∧ (s.par.env = .free ∨ s.rxne = false) ∧ s.dispMayStart = true ∧
      s.enabled .rx = true ∧ gateOpen .tx s.cr2 s.sr = false ∧ s.rx.state = .busy ∧ s.rx.sel = Sel.ofWidth .w8 ∧
      ([0x00AA, 0x12BB] : List Half) ≠ [] ∧
      s.rx.len.toNat = ([0x00AA, 0x12BB] : List Half).length * (unitBytes .w8).toNat ∧
      (∀ j < 2, s.stepAccessFault .rx .w8 (s.rx.cur + BitVec.ofNat 32 (j * (unitBytes .w8).toNat)) = none) := by decide

end Sys2Proof.Tests
end

section
/-! PROOFS. The register model: `RegRead` and `RegWrite` (R130, R131), `RMW_SET` (R132), `DR_RD` (R134). -/

namespace Sys2Proof.Machine

open Sys2Proof

/-! ### RegWrite -/

/-- Of two writes of one register the later stands (R131). -/
@[simp] theorem State.regWrite_regWrite (s : State) (r : WReg) (u v : Half) :
    (s.regWrite r u).regWrite r v = s.regWrite r v := by
  cases r <;> rfl

/-- Writing a register's own value back changes nothing (R131). -/
@[simp] theorem State.regWrite_regRead (s : State) (r : WReg) : s.regWrite r (s.regRead r.reg) = s := by
  cases r <;> rfl

/-- Settles O8: both writes are single-field updates, and irq is read from the gates on the new CR2. -/
theorem regWriteWholeRegister : Obligations.RegWriteWholeRegister := by
  intro s v
  refine ⟨rfl, rfl, fun r => ⟨s.regRead_regWrite r v, ?_⟩, ?_⟩
  · rw [State.regRead_sr, State.regWrite_sr]
  · rw [State.irq_eq_gates, State.regWrite_cr2_cr2, State.regWrite_sr]

/-! ### RMW_SET -/

/-- Setting a bit that is set already changes nothing. -/
theorem setBit_eq_self {v : Half} {k : Nat} (h : v.getLsbD k = true) : setBit v k = v := by
  apply BitVec.eq_of_getLsbD_eq
  intro j hj
  rw [getLsbD_setBit v k j hj]
  by_cases hjk : j = k
  · simp [hjk, h]
  · simp [hjk]

/-- After line 2 of `RMW_SET` the register holds the value line 1 read with the bit set (R132). -/
@[simp] theorem State.regRead_rmwSetWrite (s : State) (r : WReg) (k : Nat) (c : Half) :
    (s.rmwSetWrite r k c).regRead r.reg = setBit c k :=
  s.regRead_regWrite r (setBit c k)

/-- Line 2 of `RMW_SET` overwrites whatever the register took since line 1 (R132). -/
theorem State.rmwSetWrite_regWrite (s : State) (r : WReg) (k : Nat) (c live : Half) :
    (s.regWrite r live).rmwSetWrite r k c = s.rmwSetWrite r k c :=
  s.regWrite_regWrite r live (setBit c k)

/-- `RMW_SET` alone, on a bit that is set already, changes nothing (R132). -/
theorem State.rmwSet_eq_self {s : State} {r : WReg} {k : Nat} (h : (s.regRead r.reg).getLsbD k = true) :
    s.rmwSet r k = s := by
  rw [State.rmwSet, State.rmwSetWrite, setBit_eq_self h, State.regWrite_regRead]

/-- Settles O9: line 2 is a whole-register write of `setBit c k`, so the bits are those of `setBit` and the rest is the
frame of `RegWrite`; S6 and S7 are the two lines by definition. -/
theorem rmwSetTwoLines : Obligations.RmwSetTwoLines := by
  refine ⟨?bits, State.rmwSetWrite_regWrite, ?frame, fun _ _ _ => State.rmwSet_eq_self, ?arming, ?sample⟩
  case bits =>
    intro s r k c j
    rw [State.regRead_rmwSetWrite, getLsbD_setBit c k j j.isLt]
    simp only [Fin.ext_iff]
  case frame =>
    intro s r k c
    refine ⟨?_, rfl⟩
    rw [State.regRead_rmwSetWrite, State.rmwSetWrite]
  case arming => exact fun _ _ _ _ _ => ⟨rfl, rfl⟩
  case sample =>
    intro s hcr2
    have hset : (s.rmwSet .cr2 7).cr2 = setBit s.cr2 7 := rfl
    rw [hset, hcr2]
    decide

/-! ### DR_RD -/

/-- `DR_RD` returns the value of DR_RX at frame width (R134). -/
@[simp] theorem State.drRd_fst (s : State) (w : FrameWidth) : (s.drRd w).1 = s.drValue w := rfl

/-- `DR_RD` leaves the state of its side effect, whatever its width (R76, R134). -/
@[simp] theorem State.drRd_snd (s : State) (w : FrameWidth) : (s.drRd w).2 = s.drReadEffect := rfl

/-- The value `DR_RD` returns is a function of DR_RX alone (R134). -/
theorem State.drValue_congr {s t : State} (h : t.drRx = s.drRx) (w : FrameWidth) : t.drValue w = s.drValue w := by
  simp only [State.drValue, h]

/-- `DR_RD` clears bit 0 of SR, RXNE, and keeps every other bit (R134). -/
theorem State.getLsbD_drReadEffect_sr (s : State) (j : Fin 16) :
    s.drReadEffect.sr.getLsbD j = (decide (j.val ≠ 0) && s.sr.getLsbD j) := by
  rw [State.drReadEffect_sr, getLsbD_clrBit s.sr Config.bitRxne j j.isLt, decide_not]

/-- A receive interrupt is pending before a `DR_RD` and no longer after it (R134, R210). -/
theorem State.exists_irq_falls_at_drRd : ∃ s : State, s.irq = true ∧ (s.drRd .w8).2.irq = false :=
  ⟨{ State.reset with cr2 := 0x0040, sr := 0x0001 }, by decide⟩

/-- Settles O11: the value depends on DR_RX alone, which the side effect keeps, and the side effect is one bit of SR. -/
theorem drReadClearsRxne : Obligations.DrReadClearsRxne := by
  refine ⟨?read, State.exists_irq_falls_at_drRd, ?sample⟩
  case read =>
    intro s w
    obtain ⟨hrxne, -, -⟩ := s.drReadEffect_flags
    refine ⟨?_, rfl, s.getLsbD_drReadEffect_sr, ?_, hrxne, ?_⟩
    · cases w <;> rfl
    · exact State.drValue_congr s.drReadEffect_drRx w
    · exact fun v => State.drValue_congr rfl w
  case sample =>
    intro s hrx
    have hvalue : ∀ w, (s.drRd w).1 = ({ State.reset with drRx := 0xABCD } : State).drValue w :=
      State.drValue_congr hrx
    exact ⟨(hvalue .w8).trans (by decide), (hvalue .w16).trans (by decide)⟩

end Sys2Proof.Machine
end

section
/-! PROOFS. The flag query `FLAG_STATUS` (R140, R141). -/

namespace Sys2Proof.Machine

open Sys2Proof

/-! ### A command of two lines: one reads, one responds -/

/-- From an idle HOST, the response alone is left of a command that responds (R10). -/
theorem State.respond_from_idle {s : State} (h : s.hph = .idle) (ph : HostPhase) (v : RespCode) :
    ({ s with hph := ph } : State).respond v = { s with resp := some v } := by
  rw [State.respond, ← h]

/-- A command whose first line only reads and whose second responds leaves the response and nothing else. -/
theorem beginHost_read_respond {s : State} {first second : HostPhase} {v : RespCode} (hb : s.hostMayBegin = true)
    (hfirst : first ≠ .idle) (hsecond : second ≠ .idle)
    (hread : hostMicro { s with hph := first } = .next { s with hph := second })
    (hrespond : hostMicro { s with hph := second } = .next (({ s with hph := second } : State).respond v)) :
    beginHost first s = .next { s with resp := some v } := by
  obtain ⟨hidle, -, hfault⟩ := s.hostMayBegin_iff.1 hb
  calc beginHost first s
    _ = runHost hostFuel { s with hph := first } := if_pos hb
    _ = runHost (hostFuel - 1) { s with hph := second } := runHost_next _ hfirst hfault hread
    _ = runHost (hostFuel - 2) (({ s with hph := second } : State).respond v) :=
        runHost_next _ hsecond hfault hrespond
    _ = .next (({ s with hph := second } : State).respond v) := runHost_idle _ rfl
    _ = .next { s with resp := some v } := by rw [State.respond_from_idle hidle]

/-! ### FLAG_STATUS -/

/-- The flag identifiers of R112 are the masks of TXE, RXNE and BSY. -/
theorem validFlagMask_iff (m : Half) : validFlagMask m = true ↔ m = 0x0002 ∨ m = 0x0001 ∨ m = 0x0080 := by
  simp only [validFlagMask, Bool.or_eq_true, beq_iff_eq, or_assoc]
  rfl

/-- Masking with the mask of bit k tests bit k. -/
theorem and_twoPow_ne_zero_iff (v : Half) {k : Nat} (hk : k < 16) :
    v &&& BitVec.twoPow 16 k ≠ 0 ↔ v.getLsbD k = true := by
  have hmask : BitVec.twoPow 16 k ≠ 0 := fun h => by simpa [hk] using congrArg (BitVec.getLsbD · k) h
  rw [BitVec.and_twoPow]
  cases v.getLsbD k with
  | false => simp
  | true => simpa using hmask

/-- `FLAG_STATUS` of a valid identifier, alone, answers SR under the mask and changes nothing else (R140). -/
theorem exec_flagStatus_of_valid {m : Half} {s : State} (hm : validFlagMask m = true) (hb : s.hostMayBegin = true) :
    exec (.flagStatus m) s = .next { s with resp := some (if s.sr &&& m ≠ 0 then respSet else respReset) } :=
  calc exec (.flagStatus m) s
    _ = beginHost (.flag m .f0) s := if_pos hm
    _ = _ := beginHost_read_respond (second := .flag m (.f1 s.sr)) hb (by simp) (by simp) rfl rfl

/-- `FLAG_STATUS` of an invalid identifier is refused, whatever the state (R141). -/
theorem exec_flagStatus_of_not_valid {m : Half} (s : State) (hm : ¬ validFlagMask m = true) :
    exec (.flagStatus m) s = .refused (.invalidFlagId m) :=
  if_neg hm

/-- `FLAG_STATUS` of the mask of bit k, where that is a valid identifier, answers bit k of SR (R112, R140). -/
theorem exec_flagStatus_twoPow {k : Nat} {s : State} (hk : k < 16) (hm : validFlagMask (BitVec.twoPow 16 k) = true)
    (hb : s.hostMayBegin = true) :
    exec (.flagStatus (BitVec.twoPow 16 k)) s =
      .next { s with resp := some (if s.sr.getLsbD k then respSet else respReset) } := by
  rw [exec_flagStatus_of_valid hm hb]
  simp only [and_twoPow_ne_zero_iff s.sr hk]

/-- Settles O21: each valid identifier is the mask of one bit, so the two lines of the command answer that bit of SR;
every other mask fails the test that stands before them. -/
theorem flagStatusAnswersOrIsRefused : Obligations.FlagStatusAnswersOrIsRefused := by
  refine ⟨?valid, ?invalid⟩
  case valid =>
    intro s hb
    exact ⟨exec_flagStatus_twoPow (k := Config.bitTxe) (by decide) (by decide) hb,
      exec_flagStatus_twoPow (k := Config.bitRxne) (by decide) (by decide) hb,
      exec_flagStatus_twoPow (k := Config.bitBsy) (by decide) (by decide) hb⟩
  case invalid =>
    intro m s htxe hrxne hbsy
    apply exec_flagStatus_of_not_valid
    rw [validFlagMask_iff]
    exact not_or.2 ⟨htxe, not_or.2 ⟨hrxne, hbsy⟩⟩

end Sys2Proof.Machine
end

section
/-! PROOFS. Submitting a transfer: `SUBMIT_TX`, `SUBMIT_RX` and the busy rejection (R150 to R152). -/

namespace Sys2Proof.Machine

open Sys2Proof

/-! ### One line of a submit -/

/-- S0 on a BUSY direction ends the command with BUSY (R152). -/
theorem submitMicro_s0_busy {d : Dir} {s : State} (buf : Addr) (len : Len) (h : (s.desc d).state = .busy) :
    submitMicro d buf len .s0 s = s.respond respBusy := by
  simp only [submitMicro, h]

/-- S0 on a FREE direction goes on to S1 where STRICT_LENGTH is false (R150, R155). -/
theorem submitMicro_s0_free {d : Dir} {s : State} (buf : Addr) (len : Len) (h : (s.desc d).state = .free)
    (hstrict : s.par.strictLength = false) : submitMicro d buf len .s0 s = s.atSubmit d buf len .s1 := by
  simp [submitMicro, h, hstrict]

/-- A run of HOST at a line of a submit is that line, then the rest. -/
theorem runHost_atSubmit (k : Nat) {d : Dir} {buf : Addr} {len : Len} {ln : SubmitLine} {s t : State}
    (hf : s.hfault = none) (h : submitMicro d buf len ln (s.atSubmit d buf len ln) = t) :
    runHost (k + 1) (s.atSubmit d buf len ln) = runHost k t :=
  runHost_next k (by simp) hf (congrArg _ h)

/-- A submit where HOST may begin it runs from S0. -/
theorem beginHost_submit {d : Dir} {buf : Addr} {len : Len} {s : State} (hb : s.hostMayBegin = true) :
    beginHost (.submit d buf len .s0) s = runHost hostFuel (s.atSubmit d buf len .s0) :=
  if_pos hb

/-! ### What the lines of an accepted submit write -/

/-- What S1 to S3 write: cursor, count and state of the descriptor, and the span (R150, R151). -/
def State.lend (s : State) (d : Dir) (buf : Addr) (len : Len) : State :=
  (s.setDesc d { s.desc d with cur := buf, len := len, state := .busy }).setSpan d (some ⟨buf, len⟩)

/-- What S4 and S5 write: the selector, by the width of the live CR1 (R150, R151). -/
def State.bindWidth (s : State) (d : Dir) : State :=
  s.setDesc d { s.desc d with sel := Sel.ofWidth (dffWidth s.cr1) }

@[simp] theorem State.lend_hfault (s : State) (d : Dir) (buf : Addr) (len : Len) :
    (s.lend d buf len).hfault = s.hfault := by
  simp [State.lend]

@[simp] theorem State.lend_state (s : State) (d : Dir) (buf : Addr) (len : Len) :
    ((s.lend d buf len).desc d).state = .busy := by
  simp [State.lend]

theorem State.lend_desc_ne (s : State) {d e : Dir} (buf : Addr) (len : Len) (h : e ≠ d) :
    (s.lend d buf len).desc e = s.desc e := by
  simp [State.lend, State.desc_setDesc_ne s _ h]

@[simp] theorem State.bindWidth_hfault (s : State) (d : Dir) : (s.bindWidth d).hfault = s.hfault := by
  simp [State.bindWidth]

@[simp] theorem State.bindWidth_state (s : State) (d : Dir) : ((s.bindWidth d).desc d).state = (s.desc d).state := by
  simp [State.bindWidth]

theorem State.bindWidth_desc_ne (s : State) {d e : Dir} (h : e ≠ d) : (s.bindWidth d).desc e = s.desc e :=
  State.desc_setDesc_ne s _ h

@[simp] theorem State.desc_rmwSet (s : State) (r : WReg) (k : Nat) (d : Dir) : (s.rmwSet r k).desc d = s.desc d :=
  State.desc_regWrite s r _ d

@[simp] theorem State.desc_respond (s : State) (v : RespCode) (d : Dir) : (s.respond v).desc d = s.desc d := rfl

/-! ### Runs of an accepted submit -/

/-- S1 to S3 with no other agent between (R150, R151). -/
theorem runHost_lend (k : Nat) {d : Dir} {buf : Addr} {len : Len} {s : State} (hf : s.hfault = none) :
    runHost (k + 3) (s.atSubmit d buf len .s1) = runHost k ((s.lend d buf len).atSubmit d buf len .s4) :=
  calc runHost (k + 3) (s.atSubmit d buf len .s1)
    _ = runHost (k + 2) ((s.setDesc d { s.desc d with cur := buf }).atSubmit d buf len .s2) :=
        runHost_atSubmit _ hf (by cases d <;> rfl)
    _ = runHost (k + 1) (((s.setDesc d { s.desc d with cur := buf, len := len }).setSpan d
          (some ⟨buf, len⟩)).atSubmit d buf len .s3) :=
        runHost_atSubmit _ (by simpa) (by cases d <;> rfl)
    _ = runHost k ((s.lend d buf len).atSubmit d buf len .s4) :=
        runHost_atSubmit _ (by simpa) (by cases d <;> rfl)

/-- S4 to S7 with no other agent between: the width bound, then `RMW_SET` of the enable bit (R150, R151, R132). -/
theorem runHost_bindWidth_rmwSet (k : Nat) {d : Dir} {buf : Addr} {len : Len} {s : State} (hf : s.hfault = none) :
    runHost (k + 4) (s.atSubmit d buf len .s4) =
      .next (((s.bindWidth d).rmwSet .cr2 (enableBit d)).respond respAccepted) :=
  have hbound : (s.bindWidth d).hfault = none := by simpa
  calc runHost (k + 4) (s.atSubmit d buf len .s4)
    _ = runHost (k + 3) (s.atSubmit d buf len (.s5 s.cr1)) := runHost_atSubmit _ hf rfl
    _ = runHost (k + 2) ((s.bindWidth d).atSubmit d buf len .s6) := runHost_atSubmit _ hf (by cases d <;> rfl)
    _ = runHost (k + 1) ((s.bindWidth d).atSubmit d buf len (.s7 (s.bindWidth d).cr2)) :=
        runHost_atSubmit _ hbound rfl
    _ = runHost k (((s.bindWidth d).rmwSet .cr2 (enableBit d)).respond respAccepted) := runHost_atSubmit _ hbound rfl
    _ = .next (((s.bindWidth d).rmwSet .cr2 (enableBit d)).respond respAccepted) := runHost_idle _ rfl

/-! ### A whole submit -/

/-- A submit of a BUSY direction, alone, answers BUSY and changes nothing else, whichever the direction (R152). -/
theorem beginHost_submit_busy {d : Dir} {buf : Addr} {len : Len} {s : State} (hb : s.hostMayBegin = true)
    (hbusy : (s.desc d).state = .busy) :
    beginHost (.submit d buf len .s0) s = .next { s with resp := some respBusy } := by
  obtain ⟨hidle, -, hfault⟩ := s.hostMayBegin_iff.1 hb
  calc beginHost (.submit d buf len .s0) s
    _ = runHost hostFuel (s.atSubmit d buf len .s0) := beginHost_submit hb
    _ = runHost (hostFuel - 1) ((s.atSubmit d buf len .s0).respond respBusy) :=
        runHost_atSubmit _ hfault (submitMicro_s0_busy buf len hbusy)
    _ = .next ((s.atSubmit d buf len .s0).respond respBusy) := runHost_idle _ rfl
    _ = .next { s with resp := some respBusy } := congrArg _ (State.respond_from_idle hidle _ _)

/-- A submit of a FREE direction with STRICT_LENGTH false, alone, populates and arms it and answers ACCEPTED, whatever
the other direction holds (R150, R151). -/
theorem beginHost_submit_free {d : Dir} {buf : Addr} {len : Len} {s : State} (hb : s.hostMayBegin = true)
    (hstrict : s.par.strictLength = false) (hfree : (s.desc d).state = .free) :
    beginHost (.submit d buf len .s0) s =
      .next ((((s.lend d buf len).bindWidth d).rmwSet .cr2 (enableBit d)).respond respAccepted) := by
  obtain ⟨-, -, hfault⟩ := s.hostMayBegin_iff.1 hb
  calc beginHost (.submit d buf len .s0) s
    _ = runHost hostFuel (s.atSubmit d buf len .s0) := beginHost_submit hb
    _ = runHost (hostFuel - 1) (s.atSubmit d buf len .s1) :=
        runHost_atSubmit _ hfault (submitMicro_s0_free buf len hfree hstrict)
    _ = runHost (hostFuel - 4) ((s.lend d buf len).atSubmit d buf len .s4) := runHost_lend _ hfault
    _ = .next ((((s.lend d buf len).bindWidth d).rmwSet .cr2 (enableBit d)).respond respAccepted) :=
        runHost_bindWidth_rmwSet _ (by simpa)

/-- An accepted submit answers ACCEPTED, leaves its direction BUSY and the other descriptor as it was (R150, R151). -/
theorem beginHost_submit_free_descs {d e : Dir} {buf : Addr} {len : Len} {s : State} (hb : s.hostMayBegin = true)
    (hstrict : s.par.strictLength = false) (hfree : (s.desc d).state = .free) (he : e ≠ d) :
    ∃ t, beginHost (.submit d buf len .s0) s = .next t ∧ t.resp = some respAccepted ∧ (t.desc d).state = .busy ∧
      t.desc e = s.desc e :=
  ⟨_, beginHost_submit_free hb hstrict hfree, rfl, by simp,
    by simp [State.bindWidth_desc_ne _ he, s.lend_desc_ne buf len he]⟩

/-- Settles O19: S0 tests the submitted direction alone, so a BUSY one is answered at once and a FREE one is accepted
whatever the other holds. -/
theorem busySubmitRejected : Obligations.BusySubmitRejected := by
  refine ⟨?rejected, ?accepted⟩
  case rejected =>
    intro buf len s hb
    exact ⟨beginHost_submit_busy (d := .tx) hb, beginHost_submit_busy (d := .rx) hb⟩
  case accepted =>
    intro buf len s hb hstrict
    exact ⟨fun hfree _ => beginHost_submit_free_descs (d := .tx) (e := .rx) hb hstrict hfree (by decide),
      fun hfree _ => beginHost_submit_free_descs (d := .rx) (e := .tx) hb hstrict hfree (by decide)⟩

end Sys2Proof.Machine
end

section
/-! PROOFS. The interrupt request line (R210) and `INIT` (R200). -/

namespace Sys2Proof.Machine

open Sys2Proof

/-! ### The request line -/

/-- A gate is open exactly where the enable bit and the flag of its direction are both set (R181). -/
theorem gateOpen_iff (d : Dir) (e v : Half) :
    gateOpen d e v = true ↔ e.getLsbD (enableBit d) = true ∧ v.getLsbD (flagBit d) = true :=
  Bool.and_eq_true_iff

/-- irq reads CR2 and SR and nothing else (R210). -/
theorem State.irq_congr {s t : State} (hcr2 : s.cr2 = t.cr2) (hsr : s.sr = t.sr) : s.irq = t.irq := by
  rw [State.irq_eq_gates, State.irq_eq_gates, hcr2, hsr]

/-- Settles O13: irq is one gate of R181 per direction, and each gate is its enable bit and its flag. -/
theorem irqIsTheTwoSources : Obligations.IrqIsTheTwoSources := by
  refine ⟨?sources, fun _ _ => State.irq_congr⟩
  case sources =>
    intro s
    rw [State.irq_eq_gates, Bool.or_eq_true]
    exact or_congr (gateOpen_iff .tx s.cr2 s.sr) (gateOpen_iff .rx s.cr2 s.sr)

/-! ### The lines of `INIT` -/

/-- A run of HOST whose next line is refused is refused (R222). -/
theorem runHost_refused (k : Nat) {s : State} {r : Refusal} (hi : s.hph ≠ .idle) (hf : s.hfault = none)
    (h : hostMicro s = .refused r) : runHost (k + 1) s = .refused r := by
  rw [runHost, if_neg (by simp [hi, hf]), h]

/-- N0 is refused while a direction is BUSY (R200, R222). -/
theorem initMicro_n0_busy {c : Cfg} {s : State} (h : s.tx.state = .busy ∨ s.rx.state = .busy) :
    initMicro c .n0 s = .refused .initWhileBusy :=
  if_pos h

/-- N0 stores the record and goes on to N1 where both directions are FREE (R200). -/
theorem initMicro_n0_free {c : Cfg} {s : State} (htx : s.tx.state = .free) (hrx : s.rx.state = .free) :
    initMicro c .n0 s = .next { s with cfg := c, hph := .init c .n1 } :=
  if_neg (by simp [htx, hrx])

/-- A HOST that stands at N0 takes that line. -/
theorem hostMicro_of_init_n0 {c : Cfg} {s : State} (h : s.hph = .init c .n0) : hostMicro s = initMicro c .n0 s := by
  rw [hostMicro, h]

/-! ### A whole `INIT` -/

/-- `INIT` of a configuration, alone, with both directions FREE: the record, CR1 and the response are written (R200). -/
theorem exec_init_free {c : Cfg} {s : State} (hb : s.hostMayBegin = true) (htx : s.tx.state = .free)
    (hrx : s.rx.state = .free) :
    exec (.init c) s = .next { s with cfg := c, cr1 := initCr1 s.par.initCr1 c, resp := some respDone } := by
  obtain ⟨hidle, -, hfault⟩ := s.hostMayBegin_iff.1 hb
  calc exec (.init c) s
    _ = runHost hostFuel { s with hph := .init c .n0 } := if_pos hb
    _ = runHost (hostFuel - 1) { s with cfg := c, hph := .init c .n1 } :=
        runHost_next _ (by simp) hfault (initMicro_n0_free htx hrx)
    _ = runHost (hostFuel - 2) (State.respond
          { s with cfg := c, cr1 := initCr1 s.par.initCr1 c, hph := .init c .n1 } respDone) :=
        runHost_next _ (by simp) hfault rfl
    _ = .next (State.respond { s with cfg := c, cr1 := initCr1 s.par.initCr1 c, hph := .init c .n1 } respDone) :=
        runHost_idle _ rfl
    _ = .next { s with cfg := c, cr1 := initCr1 s.par.initCr1 c, resp := some respDone } :=
        congrArg _ (State.respond_from_idle
          (s := { s with cfg := c, cr1 := initCr1 s.par.initCr1 c }) hidle _ _)

/-- `INIT`, as a whole, is refused while a direction is BUSY: its first line is (R200, R222). -/
theorem exec_init_busy {c : Cfg} {s : State} (hb : s.hostMayBegin = true)
    (hbusy : s.tx.state = .busy ∨ s.rx.state = .busy) : exec (.init c) s = .refused .initWhileBusy := by
  obtain ⟨-, -, hfault⟩ := s.hostMayBegin_iff.1 hb
  calc exec (.init c) s
    _ = runHost hostFuel { s with hph := .init c .n0 } := if_pos hb
    _ = .refused .initWhileBusy := runHost_refused _ (by simp) hfault (initMicro_n0_busy hbusy)

/-- The configuration word 0x060 sets `dff` and `mode` alone (R104). -/
theorem unpackCfg_dff_mode : unpackCfg 0x060 = ⟨0, 0, 0, 1, 1, 0, 0, 0⟩ := by decide

/-- The reference layout puts `dff` at bit 11 and `mode` at bit 2 (R201). -/
theorem initCr1Reference_dff_mode : initCr1Reference ⟨0, 0, 0, 1, 1, 0, 0, 0⟩ = 0x0804 := by decide

/-- Settles O16: N0 tests both directions before it writes, so `INIT` runs through N1 with both FREE and is refused at
its first line otherwise; the sample is the first clause at the record that 0x060 packs. -/
theorem initCompletesOrIsRefused : Obligations.InitCompletesOrIsRefused := by
  intro c s
  refine ⟨exec_init_free, ?refused, ?sample⟩
  case refused =>
    intro hbusy
    exact ⟨fun hb => exec_init_busy hb hbusy, fun hn0 => (hostMicro_of_init_n0 hn0).trans (initMicro_n0_busy hbusy)⟩
  case sample =>
    intro hb htx hrx hlayout
    have hcr1 : initCr1 s.par.initCr1 ⟨0, 0, 0, 1, 1, 0, 0, 0⟩ = 0x0804 := by
      rw [hlayout]
      exact initCr1Reference_dff_mode
    rw [unpackCfg_dff_mode, exec_init_free hb htx hrx, hcr1]

end Sys2Proof.Machine
end

section
/-! PROOFS. The encoding: decode and encode are inverse (R101 to R108), reserved words (R102, R109), and what a turn
fetches and runs. -/

namespace Sys2Proof

open Sys2Proof.Machine

/-! ### The fields of operands -/

/-- The fields of a packed configuration word are the record's (R104). -/
@[simp] theorem unpackCfg_packCfg (c : Cfg) : unpackCfg (packCfg c) = c := by
  obtain ⟨baud, cpha, cpol, dff, mode, lsbfirst, busmode, ssm⟩ := c
  simp -index only [unpackCfg, packCfg, BitVec.extractLsb'_append_eq_of_le, Nat.reduceLeDiff, Nat.reduceSub,
    BitVec.extractLsb'_append_eq_right, BitVec.extractLsb'_eq_self]

/-- A configuration word is its fields packed: no bit of it is dropped (R104). -/
@[simp] theorem packCfg_unpackCfg (a : BitVec 11) : packCfg (unpackCfg a) = a := by
  simp -index only [unpackCfg, packCfg, BitVec.extractLsb'_append_extractLsb'_eq_extractLsb', Nat.reduceAdd,
    BitVec.extractLsb'_eq_self]

@[simp] theorem Dir.ofBit_bit (d : Dir) : Dir.ofBit d.bit = d := by cases d <;> rfl

@[simp] theorem Dir.bit_ofBit (b : BitVec 1) : (Dir.ofBit b).bit = b := by revert b; decide

/-- A word is zero above its low k bits exactly when it is those bits, zero-extended. -/
theorem extractLsb'_high_eq_zero_iff {n k : Nat} (x : BitVec (n + k)) :
    x.extractLsb' k n = 0 ↔ 0#n ++ x.extractLsb' 0 k = x := by
  constructor
  · intro h
    conv_rhs => rw [← BitVec.extractLsb'_append_extractLsb' (x := x), h]
    rfl
  · intro h
    rw [← h, BitVec.extractLsb'_append_eq_left]
    rfl

/-- A zero-extended field has nothing above it. -/
theorem extractLsb'_zero_append_high {n k : Nat} (x : BitVec k) : (0#n ++ x).extractLsb' k n = 0 :=
  BitVec.extractLsb'_append_eq_left

/-! ### The decoder on each row of R102 -/

theorem decodeC_init (c : Cfg) : decodeC (cmdWord 1 (0#21 ++ packCfg c) 0) = .ok (.init c) := by
  have hhigh : (0#21 ++ packCfg c).extractLsb' 11 21 = 0 := extractLsb'_zero_append_high _
  have hlow : (0#21 ++ packCfg c).extractLsb' 0 11 = packCfg c := BitVec.extractLsb'_append_eq_right
  simp [decodeC, opField_cmdWord, aField_cmdWord, bField_cmdWord, hhigh, hlow]

theorem decodeC_submitTx (a b : BitVec 32) : decodeC (cmdWord 2 a b) = .ok (.submitTx a b) := by
  simp [decodeC, opField_cmdWord, aField_cmdWord, bField_cmdWord]

theorem decodeC_submitRx (a b : BitVec 32) : decodeC (cmdWord 3 a b) = .ok (.submitRx a b) := by
  simp [decodeC, opField_cmdWord, aField_cmdWord, bField_cmdWord]

/-- The row of `FLAG_STATUS` decodes where its mask is a valid identifier, and is rejected for it elsewhere (R141). -/
theorem decodeC_flagStatus (m : Half) : decodeC (cmdWord 4 0 (0#16 ++ m)) =
    if validFlagMask m then .ok (.flagStatus m) else .error (.invalidFlagId m) := by
  have hhigh : (0#16 ++ m).extractLsb' 16 16 = 0 := extractLsb'_zero_append_high _
  have hlow : (0#16 ++ m).extractLsb' 0 16 = m := BitVec.extractLsb'_append_eq_right
  simp [decodeC, opField_cmdWord, aField_cmdWord, bField_cmdWord, hhigh, hlow]

theorem decodeC_getState (d : Dir) : decodeC (cmdWord 5 0 (0#31 ++ d.bit)) = .ok (.getState d) := by
  have hhigh : (0#31 ++ d.bit).extractLsb' 1 31 = 0 := extractLsb'_zero_append_high _
  have hlow : (0#31 ++ d.bit).extractLsb' 0 1 = d.bit := BitVec.extractLsb'_append_eq_right
  simp [decodeC, opField_cmdWord, aField_cmdWord, bField_cmdWord, hhigh, hlow]

theorem decodeC_blkTx (a b : BitVec 32) : decodeC (cmdWord 6 a b) = .ok (.blkTx a b) := by
  simp [decodeC, opField_cmdWord, aField_cmdWord, bField_cmdWord]

theorem decodeC_blkRx (a b : BitVec 32) : decodeC (cmdWord 7 a b) = .ok (.blkRx a b) := by
  simp [decodeC, opField_cmdWord, aField_cmdWord, bField_cmdWord]

/-- Settles O1: a command's word is taken apart into the fields it was put together from; the selectors and the event
are fixed words. -/
theorem decodeOfEncode : Obligations.DecodeOfEncode := by
  intro i hwf
  cases i with
  | init c => exact decodeC_init c
  | submitTx buf len => exact decodeC_submitTx buf len
  | submitRx buf len => exact decodeC_submitRx buf len
  | flagStatus m => exact (decodeC_flagStatus m).trans (if_pos hwf)
  | getState d => exact decodeC_getState d
  | blkTx buf len => exact decodeC_blkTx buf len
  | blkRx buf len => exact decodeC_blkRx buf len
  | stepTx8 => rfl
  | stepTx16 => rfl
  | stepRx8 => rfl
  | stepRx16 => rfl
  | closeTx => rfl
  | closeRx => rfl
  | irqDispatch => rfl

/-! ### The words of instructions -/

/-- Decoding an encoded instruction answers it, or rejects its flag identifier: it is never reserved. -/
theorem decode_encode_cases (i : Instr) :
    (i.wellFormed = true ∧ decode (encode i) = .ok i) ∨ ∃ m, decode (encode i) = .error (.invalidFlagId m) := by
  by_cases hwf : i.wellFormed = true
  · exact .inl ⟨hwf, decodeOfEncode i hwf⟩
  · cases i with
    | flagStatus m => exact .inr ⟨m, (decodeC_flagStatus m).trans (if_neg hwf)⟩
    | _ => exact absurd rfl hwf

/-- A command word with these fields. -/
theorem eq_cmdWord_of_fields {w : CmdWord} {op : BitVec 8} {a b : BitVec 32} (hop : opField w = op)
    (ha : aField w = a) (hb : bField w = b) : cmdWord op a b = w := by
  rw [← hop, ← ha, ← hb, cmdWord_fields]

/-- The fields of a configuration word of `INIT` (R102, R104). -/
theorem encoded_of_init_fields {w : CmdWord} (hop : opField w = 1) (ha : (aField w).extractLsb' 11 21 = 0)
    (hb : bField w = 0) : ∃ i, encode i = .c w := by
  have hlow := (extractLsb'_high_eq_zero_iff (n := 21) (k := 11) (aField w)).1 ha
  refine ⟨.init (unpackCfg ((aField w).extractLsb' 0 11)), congrArg OpWord.c ?_⟩
  rw [packCfg_unpackCfg]
  exact eq_cmdWord_of_fields hop hlow.symm hb

/-- The fields of `FLAG_STATUS`, valid identifier or not (R102). -/
theorem encoded_of_flagStatus_fields {w : CmdWord} (hop : opField w = 4) (ha : aField w = 0)
    (hb : (bField w).extractLsb' 16 16 = 0) : ∃ i, encode i = .c w :=
  have hlow := (extractLsb'_high_eq_zero_iff (n := 16) (k := 16) (bField w)).1 hb
  ⟨.flagStatus ((bField w).extractLsb' 0 16), congrArg OpWord.c (eq_cmdWord_of_fields hop ha hlow.symm)⟩

/-- The fields of `GET_STATE` (R102). -/
theorem encoded_of_getState_fields {w : CmdWord} (hop : opField w = 5) (ha : aField w = 0)
    (hb : (bField w).extractLsb' 1 31 = 0) : ∃ i, encode i = .c w := by
  have hlow := (extractLsb'_high_eq_zero_iff (n := 31) (k := 1) (bField w)).1 hb
  refine ⟨.getState (Dir.ofBit ((bField w).extractLsb' 0 1)), congrArg OpWord.c ?_⟩
  rw [Dir.bit_ofBit]
  exact eq_cmdWord_of_fields hop ha hlow.symm

/-- The operation codes whose operand fields are free (R102). -/
theorem encoded_of_buffer_op {w : CmdWord}
    (hop : opField w = 2 ∨ opField w = 3 ∨ opField w = 6 ∨ opField w = 7) : ∃ i, encode i = .c w := by
  rcases hop with h | h | h | h
  · exact ⟨.submitTx (aField w) (bField w), congrArg OpWord.c (eq_cmdWord_of_fields h rfl rfl)⟩
  · exact ⟨.submitRx (aField w) (bField w), congrArg OpWord.c (eq_cmdWord_of_fields h rfl rfl)⟩
  · exact ⟨.blkTx (aField w) (bField w), congrArg OpWord.c (eq_cmdWord_of_fields h rfl rfl)⟩
  · exact ⟨.blkRx (aField w) (bField w), congrArg OpWord.c (eq_cmdWord_of_fields h rfl rfl)⟩

/-- A command word is reserved, or it is the word of an instruction. -/
theorem decodeC_reserved_or_encoded (w : CmdWord) :
    decodeC w = .error (.reservedCommand w) ∨ ∃ i, encode i = .c w := by
  have op {k : Nat} (h : (opField w).toNat = k) : opField w = BitVec.ofNat 8 k := by
    rw [← h, BitVec.ofNat_toNat, BitVec.setWidth_eq]
  simp only [decodeC]
  split
  case h_1 hk =>
    split
    · next hab => exact .inr (encoded_of_init_fields (op hk) hab.1 hab.2)
    · exact .inl rfl
  case h_2 hk => exact .inr (encoded_of_buffer_op (.inl (op hk)))
  case h_3 hk => exact .inr (encoded_of_buffer_op (.inr (.inl (op hk))))
  case h_4 hk =>
    split
    · next hab => exact .inr (encoded_of_flagStatus_fields (op hk) hab.1 hab.2)
    · exact .inl rfl
  case h_5 hk =>
    split
    · next hab => exact .inr (encoded_of_getState_fields (op hk) hab.1 hab.2)
    · exact .inl rfl
  case h_6 hk => exact .inr (encoded_of_buffer_op (.inr (.inr (.inl (op hk)))))
  case h_7 hk => exact .inr (encoded_of_buffer_op (.inr (.inr (.inr (op hk)))))
  case h_8 => exact .inl rfl

/-- A command word is reserved exactly when it is the word of no instruction. -/
theorem decodeC_reserved_iff (w : CmdWord) :
    decodeC w = .error (.reservedCommand w) ↔ ¬ ∃ i, encode i = .c w := by
  refine ⟨?_, (decodeC_reserved_or_encoded w).resolve_right⟩
  rintro hres ⟨i, hi⟩
  have hdec : decode (encode i) = .error (.reservedCommand w) := hi ▸ hres
  rcases decode_encode_cases i with ⟨-, h⟩ | ⟨m, h⟩ <;> rw [hdec] at h <;> cases h

/-- A selector of format U that decodes is the word of what it decodes to (R106). -/
theorem encode_of_decodeU {w : StepWord} {i : Instr} (h : decodeU w = .ok i) : encode i = .u w := by
  have hw : w = 0 ∨ w = 1 ∨ w = 2 ∨ w = 3 ∨ w = 4 ∨ w = 5 ∨ w = 6 ∨ w = 7 := by clear h; decide +revert
  rcases hw with rfl | rfl | rfl | rfl | rfl | rfl | rfl | rfl <;> cases h <;> rfl

/-- A selector of format T that decodes is the word of what it decodes to (R107). -/
theorem encode_of_decodeT {w : TailWord} {i : Instr} (h : decodeT w = .ok i) : encode i = .t w := by
  have hw : w = 0 ∨ w = 1 ∨ w = 2 ∨ w = 3 := by clear h; decide +revert
  rcases hw with rfl | rfl | rfl | rfl <;> cases h <;> rfl

/-- An event that decodes is the word of what it decodes to (R108). -/
theorem encode_of_decodeE {w : EventWord} {i : Instr} (h : decodeE w = .ok i) : encode i = .e w := by
  have hw : w = 0 ∨ w = 1 := by clear h; decide +revert
  rcases hw with rfl | rfl
  · cases h
  · cases h; rfl

/-- A word that decodes is the word of some instruction. -/
theorem exists_encode_of_decode {w : OpWord} {i : Instr} (h : decode w = .ok i) : ∃ j, encode j = w := by
  cases w with
  | c w =>
    refine (decodeC_reserved_or_encoded w).resolve_left fun hres => ?_
    cases hres.symm.trans h
  | u w => exact ⟨i, encode_of_decodeU h⟩
  | t w => exact ⟨i, encode_of_decodeT h⟩
  | e w => exact ⟨i, encode_of_decodeE h⟩

/-- Settles O2: a word that decodes is the word of some instruction, and that instruction is what it decodes to. -/
theorem encodeOfDecode : Obligations.EncodeOfDecode := by
  intro w i h
  obtain ⟨j, rfl⟩ := exists_encode_of_decode h
  rcases decode_encode_cases j with ⟨hwf, hj⟩ | ⟨m, hj⟩
  · cases hj.symm.trans h
    exact ⟨hwf, rfl⟩
  · cases hj.symm.trans h

/-! ### The rows of R102 -/

/-- A row hits a word exactly when its three fields agree under the mask's. -/
theorem Row.hits_iff_fields (r : Row) (w : CmdWord) : r.hits w = true ↔
    opField w &&& opField r.mask = opField r.pattern ∧ aField w &&& aField r.mask = aField r.pattern ∧
      bField w &&& bField r.mask = bField r.pattern := by
  have hand : w &&& r.mask = cmdWord (opField w &&& opField r.mask) (aField w &&& aField r.mask)
      (bField w &&& bField r.mask) := by
    rw [← Laws.EncodeRow.cmdWord_and, cmdWord_fields, cmdWord_fields]
  rw [Row.hits, beq_iff_eq, hand]
  constructor
  · intro h
    rw [← h, opField_cmdWord, aField_cmdWord, bField_cmdWord]
    exact ⟨rfl, rfl, rfl⟩
  · rintro ⟨ho, ha, hb⟩
    rw [ho, ha, hb, cmdWord_fields]

/-- Every row reads the whole operation field (R102). -/
theorem opField_mask : ∀ r ∈ commandRows, opField r.mask = 0xFF := by decide

/-- No two rows have one operation code (R102). -/
theorem row_ext_opField : ∀ r ∈ commandRows, ∀ q ∈ commandRows, opField r.pattern = opField q.pattern → r = q := by
  decide

/-- A row hits only words of its own operation code. -/
theorem opField_of_hits {r : Row} {w : CmdWord} (hr : r ∈ commandRows) (h : r.hits w = true) :
    opField w = opField r.pattern := by
  have hop := ((r.hits_iff_fields w).1 h).1
  rw [opField_mask r hr] at hop
  exact (BitVec.and_allOnes (x := opField w)).symm.trans hop

/-- A field that is zero under the mask of its high bits is zero there. -/
theorem high_eq_zero_of_and_mask {n k : Nat} {x : BitVec (n + k)} (h : x &&& (BitVec.allOnes n ++ 0#k) = 0) :
    x.extractLsb' k n = 0 := by
  have hx := congrArg (BitVec.extractLsb' k n) h
  rwa [BitVec.extractLsb'_and, BitVec.extractLsb'_append_eq_left, BitVec.and_allOnes,
    show (0 : BitVec (n + k)) = 0#(n + k) from rfl, BitVec.extractLsb'_zero] at hx

/-- A word that a row hits is the word of an instruction. -/
theorem encoded_of_hits {r : Row} {w : CmdWord} (hr : r ∈ commandRows) (h : r.hits w = true) :
    ∃ i, encode i = .c w := by
  have hop := opField_of_hits hr h
  obtain ⟨-, ha, hb⟩ := (r.hits_iff_fields w).1 h
  simp only [commandRows, List.mem_cons, List.not_mem_nil, or_false] at hr
  rcases hr with rfl | rfl | rfl | rfl | rfl | rfl | rfl
  · exact encoded_of_init_fields hop (high_eq_zero_of_and_mask (n := 21) (k := 11) ha)
      ((BitVec.and_allOnes (x := bField w)).symm.trans hb)
  · exact encoded_of_buffer_op (.inl hop)
  · exact encoded_of_buffer_op (.inr (.inl hop))
  · exact encoded_of_flagStatus_fields hop ((BitVec.and_allOnes (x := aField w)).symm.trans ha)
      (high_eq_zero_of_and_mask (n := 16) (k := 16) hb)
  · exact encoded_of_getState_fields hop ((BitVec.and_allOnes (x := aField w)).symm.trans ha)
      (high_eq_zero_of_and_mask (n := 31) (k := 1) hb)
  · exact encoded_of_buffer_op (.inr (.inr (.inl hop)))
  · exact encoded_of_buffer_op (.inr (.inr (.inr hop)))

/-- The word of a command is hit by its row. -/
theorem exists_row_of_encoded {i : Instr} {w : CmdWord} (h : encode i = .c w) : ∃ r ∈ commandRows, r.hits w = true := by
  cases i with
  | init c => cases h; exact ⟨_, Laws.EncodeRow.init c⟩
  | submitTx a b => cases h; exact ⟨_, Laws.EncodeRow.submitTx a b⟩
  | submitRx a b => cases h; exact ⟨_, Laws.EncodeRow.submitRx a b⟩
  | flagStatus m => cases h; exact ⟨_, Laws.EncodeRow.flagStatus m⟩
  | getState d => cases h; exact ⟨_, Laws.EncodeRow.getState d⟩
  | blkTx a b => cases h; exact ⟨_, Laws.EncodeRow.blkTx a b⟩
  | blkRx a b => cases h; exact ⟨_, Laws.EncodeRow.blkRx a b⟩
  | _ => cases h

/-- A word is the word of an instruction exactly when a row hits it. -/
theorem encoded_iff_hit (w : CmdWord) : (∃ i, encode i = .c w) ↔ ∃ r ∈ commandRows, r.hits w = true :=
  ⟨fun ⟨_, h⟩ => exists_row_of_encoded h, fun ⟨_, hr, h⟩ => encoded_of_hits hr h⟩

/-- A command word is reserved exactly when no row hits it. -/
theorem decodeC_reserved_iff_no_hit (w : CmdWord) :
    decodeC w = .error (.reservedCommand w) ↔ ∀ r ∈ commandRows, r.hits w = false := by
  rw [decodeC_reserved_iff, encoded_iff_hit]
  simp only [not_exists, not_and, Bool.not_eq_true]

/-- Settles O4: reserved is being no instruction's word, a row hits exactly the words of its instruction, and a row's
operation code tells it from every other. -/
theorem reservedExactlyOffTheRows : Obligations.ReservedExactlyOffTheRows := by
  refine ⟨decodeC_reserved_iff_no_hit, ?_⟩
  intro w r hr q hq hrw hqw
  exact row_ext_opField r hr q hq ((opField_of_hits hr hrw).symm.trans (opField_of_hits hq hqw))

/-- Settles O3: each word, decoded by evaluation. -/
theorem decodeSampleWords : Obligations.DecodeSampleWords :=
  ⟨rfl, rfl, rfl, rfl, rfl, rfl, rfl, rfl, rfl, rfl⟩

end Sys2Proof
end

section
/-! PROOFS. What a turn fetches and runs, and what is refused (R109, R141, R222). -/

namespace Sys2Proof.Machine

open Sys2Proof

/-! ### The turn and its word -/

/-- The first turn of the schedule is the next one, and it is consumed. -/
theorem step_of_sched {s : State} {t : Turn} {ts : List Turn} (h : s.sched = t :: ts) :
    step s = runTurn t { s with sched := ts } := by
  simp only [step, stepTurn, State.turn, State.consume, h]

/-- What a turn runs whole does not depend on the schedule. -/
theorem fetchTurn_consume (t : Turn) (s : State) : fetchTurn t s.consume = fetchTurn t s := by
  obtain ⟨ts, n, hs⟩ := s.consume_eq
  rw [hs]
  cases t <;> rfl

theorem State.fetch_of_sched {s : State} {t : Turn} {ts : List Turn} (h : s.sched = t :: ts) :
    s.fetch = fetchTurn t s := by
  simp only [State.fetch, State.turn, h]

/-- Settles O5: consuming the turn leaves the word it fetches. -/
theorem stepRunsDecodedOperation : Obligations.StepRunsDecodedOperation := by
  intro s w i hf hd
  have hfetch : fetchTurn s.turn s.consume = some w := (fetchTurn_consume s.turn s).trans hf
  rw [step, stepTurn, runTurn, hfetch]
  simp only [runWord, hd]

/-- At DISP's turn the word is the one at which DISP stands, where no fault has stopped it. -/
theorem fetchTurn_dispOp {s : State} (h : s.dfault = none) : fetchTurn .dispOp s = s.dispWord := by
  simp [fetchTurn, h]

/-- Settles O6: each word is the encoding of the operation whose first line DISP stands at. -/
theorem fetchedWords : Obligations.FetchedWords := by
  refine ⟨?host, ?event, ?selector⟩
  case host =>
    intro s w ts hs hb
    rw [State.fetch_of_sched hs]
    exact if_pos hb
  case event =>
    intro s ts hs hb
    obtain ⟨hdph, hfault, -⟩ := s.dispMayStart_iff.1 hb
    rw [State.fetch_of_sched hs, fetchTurn_dispOp hfault]
    simp only [State.dispWord, hdph, hb, if_true]
    rfl
  case selector =>
    intro s ts hs hfault
    rw [State.fetch_of_sched hs, fetchTurn_dispOp hfault]
    refine ⟨?_, ?_, ?_, ?_, ?_, ?_⟩ <;> intro hdph <;> simp only [State.dispWord, hdph] <;> rfl

/-! ### Refusals -/

/-- A command whose word is rejected by name is refused, run whole or started (R109, R222). -/
theorem step_refused {s : State} {w : CmdWord} {t : Turn} {ts : List Turn} {r : Reject} {x : Refusal}
    (ht : t = .hostOp w ∨ t = .hostStart w) (hs : s.sched = t :: ts) (hb : s.hostMayBegin = true)
    (hdec : decode (.c w) = .error r) (hx : refusalOf r = some x) : step s = .refused x := by
  have hb' : State.hostMayBegin { s with sched := ts } = true := hb
  rw [step_of_sched hs]
  rcases ht with rfl | rfl
  · rw [runTurn_hostOp w hb']
    simp only [runWord, hdec, rejected, hx]
  · rw [runTurn_hostStart w hb']
    simp only [startCommand, hdec, rejected, hx]

/-- Settles O7: a word with no row decodes to nothing, and the row of `FLAG_STATUS` rejects an invalid identifier. -/
theorem rejectedCommandsRefused : Obligations.RejectedCommandsRefused := by
  intro s w t ts ht hs hb
  refine ⟨fun hrows => ?_, ?_⟩
  · exact step_refused ht hs hb ((decodeC_reserved_iff_no_hit w).2 hrows) rfl
  · rintro m rfl hm
    have hdec : decode (.c (cmdWord 4 0 (0#16 ++ m))) = .error (.invalidFlagId m) :=
      (decodeC_flagStatus m).trans (if_neg (by simp [hm]))
    exact step_refused ht hs hb hdec rfl

end Sys2Proof.Machine
end

section
/-! PROOFS. The register model: `RMW_CLR` (R133), `DR_WR` (R135), InitCR1 (R201); and the buffer memory (R72, R73). -/

namespace Sys2Proof.Machine

open Sys2Proof

/-! ### RMW_CLR -/

/-- After line 2 of `RMW_CLR` the register holds the value line 1 read with the bit cleared (R133). -/
@[simp] theorem State.regRead_rmwClrWrite (s : State) (r : WReg) (k : Nat) (c : Half) :
    (s.rmwClrWrite r k c).regRead r.reg = clrBit c k :=
  s.regRead_regWrite r (clrBit c k)

/-- Settles O10: line 2 is a whole-register write of `clrBit c k`; K0 and K1 are the two lines by definition. -/
theorem rmwClrTwoLines : Obligations.RmwClrTwoLines := by
  refine ⟨?bits, fun s r k c live => s.regWrite_regWrite r live (clrBit c k), fun _ _ _ => ⟨rfl, rfl⟩⟩
  case bits =>
    intro s r k c j
    rw [State.regRead_rmwClrWrite, getLsbD_clrBit c k j j.isLt]
    simp only [Fin.ext_iff]

/-! ### DR_WR -/

/-- `DR_WR` clears bit 1 of SR, TXE, and keeps every other bit (R135). -/
theorem State.getLsbD_drWr_sr (s : State) (w : FrameWidth) (v : Half) (j : Fin 16) :
    (s.drWr w v).sr.getLsbD j = (decide (j.val ≠ 1) && s.sr.getLsbD j) := by
  rw [State.drWr_sr, getLsbD_clrBit s.sr Config.bitTxe j j.isLt, decide_not]

/-- Settles O12: DR_TX, the log and one bit of SR are written in one update. -/
theorem drWriteLogsAndClearsTxe : Obligations.DrWriteLogsAndClearsTxe := by
  refine ⟨fun s v => ⟨rfl, rfl, rfl, rfl⟩, fun s w v => ⟨s.getLsbD_drWr_sr w v, rfl⟩, fun s => ⟨?_, ?_, ?_⟩⟩
  · show frameZext .w8 0x11 = 0x0011
    decide
  · show s.txlog ++ [logEntry .w8 0x11] = s.txlog ++ [.b8 0x11]
    rw [show logEntry .w8 0x11 = .b8 0x11 by decide]
  · exact (s.drWr_flags .w8 0x11).1

/-! ### InitCR1 -/

/-- The bit of a one-bit field. -/
theorem getLsbD_zero_eq_decide (b : BitVec 1) : b.getLsbD 0 = decide (b = 1) := by decide +revert

/-- The reference layout, field by field (R201). -/
theorem initCr1Reference_fields (c : Cfg) : let r := initCr1Reference c
    r.extractLsb' 0 1 = c.cpha ∧ r.extractLsb' 1 1 = c.cpol ∧ r.extractLsb' 2 1 = c.mode ∧
    r.extractLsb' 3 3 = c.baud ∧ r.extractLsb' 6 1 = 0 ∧ r.extractLsb' 7 1 = c.lsbfirst ∧ r.extractLsb' 8 1 = 0 ∧
    r.extractLsb' 9 1 = c.ssm ∧ r.extractLsb' 10 1 = 0 ∧ r.extractLsb' 11 1 = c.dff ∧ r.extractLsb' 12 4 = 0 := by
  simp -index only [initCr1Reference, BitVec.extractLsb'_append_eq_of_le, Nat.reduceLeDiff, Nat.reduceSub,
    BitVec.extractLsb'_append_eq_right, BitVec.extractLsb'_eq_self, BitVec.ofNat_eq_ofNat, and_self]

/-- The reference layout has DFF at bit 11 (R201). -/
theorem initCr1Reference_dff (c : Cfg) : (initCr1Reference c).getLsbD 11 = c.dff.getLsbD 0 := by
  have hdff : (initCr1Reference c).extractLsb' 11 1 = c.dff := by
    obtain ⟨-, -, -, -, -, -, -, -, -, h, -⟩ := initCr1Reference_fields c
    exact h
  rw [← hdff, BitVec.getLsbD_extractLsb']
  rfl

/-- Either InitCR1 has the record's DFF at bit 11 (R201). -/
theorem initCr1_dff (k : InitCr1Kind) (c : Cfg) : (initCr1 k c).getLsbD 11 = decide (c.dff = 1) := by
  cases k with
  | free => rw [initCr1, getLsbD_putBit _ Config.bitDff 11 _ (by decide), if_pos rfl, beq_eq_decide]
  | reference => rw [initCr1, initCr1Reference_dff, getLsbD_zero_eq_decide]

/-- Settles O17: DFF is one bit of the value, and the reference layout is its fields put together. -/
theorem initCr1KeepsDff : Obligations.InitCr1KeepsDff := by
  refine ⟨initCr1_dff, fun k c => ?_, initCr1Reference_fields⟩
  simp only [dffWidth, initCr1_dff, decide_eq_true_eq]

/-! ### The buffer memory -/

/-- A stored unit reads back: two bytes in either byte order, or the low byte (R73). -/
theorem State.readUnit_writeUnit_same {s : State} (w : FrameWidth) (a : Addr) (v : Half) (h : s.mem.wf = true) :
    (s.writeUnit w a v).readUnit w a = frameZext w v := by
  cases w with
  | w8 => exact congrArg (BitVec.setWidth 16) (State.byteAt_writeUnit8 a v h)
  | w16 =>
    rw [State.readUnit, State.byteAt_writeUnit16_first a v h, State.byteAt_writeUnit16_second a v h,
      State.writeUnit_par, assemble_bytes]
    rfl

/-- Settles O14: read after write of a byte and of its neighbours, and of the two bytes of a unit. -/
theorem memoryReadAfterWrite : Obligations.MemoryReadAfterWrite := by
  refine ⟨?byte, ?unit⟩
  case byte =>
    intro s a v
    exact ⟨State.byteAt_putByte_same a v, fun b => State.byteAt_putByte_ne s v, rfl⟩
  case unit =>
    intro s a v h
    refine ⟨State.readUnit_writeUnit_same .w16 a v h, State.readUnit_writeUnit_same .w8 a v h, ?_, ?_⟩ <;>
    · intro ho
      rw [State.byteAt_writeUnit16_first a v h, State.byteAt_writeUnit16_second a v h, ho]
      exact ⟨rfl, rfl⟩

end Sys2Proof.Machine
end

section
/-! PROOFS. What one line can do, said once for HOST and once for DISP, and what every step keeps because of it: the
parameters, the canonical memory, the transmit log; the hand-off of the bus state, SR and CR1, the two directions. -/

namespace Sys2Proof.Machine

open Sys2Proof

/-! ### The moves of a line -/

/-- What a line that transfers data does to DR, SR and memory, whichever the agent (R72, R134, R135). -/
inductive DataMove (s : State) : State → Prop
  | stay : DataMove s s
  | drWr (w : FrameWidth) (v : Half) : DataMove s (s.drWr w v)
  | drRead : DataMove s s.drReadEffect
  | putByte (a : Addr) (v : Byte) : DataMove s (s.putByte a v)
  | writeUnit (w : FrameWidth) (a : Addr) (v : Half) : DataMove s (s.writeUnit w a v)

/-- What a line of HOST does but for its phase, its fault and the response: HOST makes no direction FREE, and writes CR1
at N1 only. -/
inductive HostMove (s : State) : State → Prop
  | data {u : State} (h : DataMove s u) : HostMove s u
  | record (c : Cfg) : HostMove s { s with cfg := c }
  | writeCr1 {c : Cfg} (v : Half) (h : s.hph = .init c .n1) : HostMove s (s.regWrite .cr1 v)
  | writeCr2 (v : Half) : HostMove s (s.regWrite .cr2 v)
  | desc (d : Dir) (x : Desc) (h : (s.desc d).state = .busy → x.state = .busy) : HostMove s (s.setDesc d x)
  | lend (d : Dir) (x : Desc) (sp : Option Span) (h : (s.desc d).state = .busy → x.state = .busy) :
      HostMove s ((s.setDesc d x).setSpan d sp)

/-- What a line of DISP does but for its phase and its fault: it writes the descriptor it serves only, and makes no
direction BUSY. -/
inductive DispMove (s : State) : State → Prop
  | data {u : State} (h : DataMove s u) : DispMove s u
  | writeCr2 (v : Half) : DispMove s (s.regWrite .cr2 v)
  | desc (d : Dir) (x : Desc) (hd : serving d s.dph = true) (h : (s.desc d).state = .free → x.state = .free) :
      DispMove s (s.setDesc d x)
  | release (d : Dir) (x : Desc) (sp : Option Span) (hd : serving d s.dph = true)
      (h : (s.desc d).state = .free → x.state = .free) : DispMove s ((s.setDesc d x).setSpan d sp)

/-- A state with HOST's phase, fault and the response given these values. -/
def State.hostSet (s : State) (p : HostPhase) (f : Option Fault) (r : Option RespCode) : State :=
  { s with hph := p, hfault := f, resp := r }

/-- A state with DISP's phase and fault given these values. -/
def State.dispSet (s : State) (p : DispPhase) (f : Option Fault) : State := { s with dph := p, dfault := f }

/-- Raising a fault in HOST writes its fault only (R222). -/
theorem State.raiseHost_eq (s : State) (f : Fault) : s.raiseHost f = s.hostSet s.hph (some (s.hfault.getD f)) s.resp := by
  unfold State.raiseHost
  split
  · next h => rw [h]; rfl
  · next g h => rw [h, Option.getD_some, ← h]; rfl

/-- Raising a fault in DISP writes its fault only (R222). -/
theorem State.raiseDisp_eq (s : State) (f : Fault) : s.raiseDisp f = s.dispSet s.dph (some (s.dfault.getD f)) := by
  unfold State.raiseDisp
  split
  · next h => rw [h]; rfl
  · next g h => rw [h, Option.getD_some, ← h]; rfl

/-- A line of a submit moves the descriptor of its direction, its span, or CR2. -/
theorem submitMicro_move (d : Dir) (buf : Addr) (len : Len) (ln : SubmitLine) (s : State) :
    ∃ u, HostMove s u ∧ ∃ p f r, submitMicro d buf len ln s = u.hostSet p f r := by
  cases ln with
  | s0 =>
    simp only [submitMicro]
    split
    · exact ⟨s, .data .stay, _, _, _, rfl⟩
    · split <;> exact ⟨s, .data .stay, _, _, _, rfl⟩
  | s0b =>
    simp only [submitMicro]
    split <;> exact ⟨s, .data .stay, _, _, _, rfl⟩
  | s1 => exact ⟨_, .desc d { s.desc d with cur := buf } id, _, _, _, rfl⟩
  | s2 => exact ⟨_, .lend d { s.desc d with len := len } (some ⟨buf, len⟩) id, _, _, _, rfl⟩
  | s3 => exact ⟨_, .desc d { s.desc d with state := .busy } (fun _ => rfl), _, _, _, rfl⟩
  | s4 => exact ⟨s, .data .stay, _, _, _, rfl⟩
  | s5 c1 => exact ⟨_, .desc d { s.desc d with sel := Sel.ofWidth (dffWidth c1) } id, _, _, _, rfl⟩
  | s6 => exact ⟨s, .data .stay, _, _, _, rfl⟩
  | s7 c2 => exact ⟨_, .writeCr2 (setBit c2 (enableBit d)), _, _, _, rfl⟩

/-- A line of `BLK_TX` transfers data or moves on. -/
theorem blkTxMicro_move (buf : Addr) (len : Len) (ln : BlkLine) (s : State) :
    ∃ u, DataMove s u ∧ ∃ p f r, blkTxMicro buf len ln s = u.hostSet p f r := by
  cases ln with
  | b5 p n w x => exact ⟨_, .drWr w x, _, _, _, rfl⟩
  | b4 p n w =>
    simp only [blkTxMicro]
    split
    · next f _ => exact ⟨s, .stay, _, _, _, s.raiseHost_eq f⟩
    · split <;> exact ⟨s, .stay, _, _, _, rfl⟩
  | b1 p n => simp only [blkTxMicro]; split <;> exact ⟨s, .stay, _, _, _, rfl⟩
  | b2 p n => simp only [blkTxMicro]; split <;> exact ⟨s, .stay, _, _, _, rfl⟩
  | b7 => simp only [blkTxMicro]; split <;> exact ⟨s, .stay, _, _, _, rfl⟩
  | b0 => exact ⟨s, .stay, _, _, _, rfl⟩
  | b3 p n => exact ⟨s, .stay, _, _, _, rfl⟩
  | b4b p n w first => exact ⟨s, .stay, _, _, _, rfl⟩
  | b5b p n w x => exact ⟨s, .stay, s.hph, s.hfault, s.resp, rfl⟩
  | b6 p n w => exact ⟨s, .stay, _, _, _, rfl⟩
  | b8 => exact ⟨s, .stay, _, _, _, rfl⟩

/-- A line of `BLK_RX` transfers data or moves on. -/
theorem blkRxMicro_move (buf : Addr) (len : Len) (ln : BlkLine) (s : State) :
    ∃ u, DataMove s u ∧ ∃ p f r, blkRxMicro buf len ln s = u.hostSet p f r := by
  cases ln with
  | b4 p n w => exact ⟨_, .drRead, _, _, _, rfl⟩
  | b5 p n w v =>
    simp only [blkRxMicro]
    split
    · next f _ => exact ⟨s, .stay, _, _, _, s.raiseHost_eq f⟩
    · split
      · exact ⟨_, .putByte p (firstByte s.par.byteOrder v), _, _, _, rfl⟩
      · exact ⟨_, .writeUnit w p v, _, _, _, rfl⟩
  | b5b p n w v => exact ⟨_, .putByte (p + 1) (secondByte s.par.byteOrder v), _, _, _, rfl⟩
  | b1 p n => simp only [blkRxMicro]; split <;> exact ⟨s, .stay, _, _, _, rfl⟩
  | b2 p n => simp only [blkRxMicro]; split <;> exact ⟨s, .stay, _, _, _, rfl⟩
  | b0 => exact ⟨s, .stay, _, _, _, rfl⟩
  | b3 p n => exact ⟨s, .stay, _, _, _, rfl⟩
  | b4b p n w first => exact ⟨s, .stay, s.hph, s.hfault, s.resp, rfl⟩
  | b6 p n w => exact ⟨s, .stay, _, _, _, rfl⟩
  | b7 => exact ⟨s, .stay, _, _, _, rfl⟩
  | b8 => exact ⟨s, .stay, s.hph, s.hfault, s.resp, rfl⟩

/-- What a line of HOST that answers a next state has done. -/
theorem hostMicro_move {s t : State} (h : hostMicro s = .next t) :
    ∃ u, HostMove s u ∧ ∃ p f r, t = u.hostSet p f r := by
  unfold hostMicro at h
  split at h
  · cases h; exact ⟨s, .data .stay, s.hph, s.hfault, s.resp, rfl⟩
  · next c ln hph =>
    cases ln with
    | n0 =>
      simp only [initMicro] at h
      split at h
      · cases h
      · cases h; exact ⟨_, .record c, _, _, _, rfl⟩
    | n1 => cases h; exact ⟨_, .writeCr1 _ hph, _, _, _, rfl⟩
  · next d buf len ln _ => cases h; exact submitMicro_move d buf len ln s
  · next m ln _ => cases h; cases ln <;> exact ⟨s, .data .stay, _, _, _, rfl⟩
  · next d ln _ => cases h; cases ln <;> exact ⟨s, .data .stay, _, _, _, rfl⟩
  · next d buf len ln _ =>
    cases h
    obtain ⟨u, hu, he⟩ : ∃ u, DataMove s u ∧ ∃ p f r, blkMicro d buf len ln s = u.hostSet p f r := by
      cases d
      · exact blkTxMicro_move buf len ln s
      · exact blkRxMicro_move buf len ln s
    exact ⟨u, .data hu, he⟩

/-- A line of a transmit step transfers a unit, moves its own descriptor, or moves on. -/
theorem stepTxMicro_move {w : FrameWidth} {ln : TxLine} {s : State} (hd : serving .tx s.dph = true) :
    ∃ u, DispMove s u ∧ ∃ p f, stepTxMicro w ln s = u.dispSet p f := by
  cases ln with
  | t0 =>
    simp only [stepTxMicro]
    split
    · next f _ => exact ⟨s, .data .stay, _, _, s.raiseDisp_eq f⟩
    · split <;> exact ⟨s, .data .stay, _, _, rfl⟩
  | t0b first => exact ⟨s, .data .stay, _, _, rfl⟩
  | t1 x => exact ⟨_, .data (.drWr w x), _, _, rfl⟩
  | t2 => exact ⟨_, .desc .tx { s.tx with cur := s.tx.cur + unitBytes w } hd id, _, _, rfl⟩
  | t3 => exact ⟨_, .desc .tx { s.tx with len := s.tx.len - unitBytes w } hd id, _, _, rfl⟩
  | t4 => simp only [stepTxMicro, tailMicro]; split <;> exact ⟨s, .data .stay, _, _, rfl⟩

/-- A line of a receive step transfers a unit, moves its own descriptor, or moves on. -/
theorem stepRxMicro_move {w : FrameWidth} {ln : RxLine} {s : State} (hd : serving .rx s.dph = true) :
    ∃ u, DispMove s u ∧ ∃ p f, stepRxMicro w ln s = u.dispSet p f := by
  cases ln with
  | t0 => exact ⟨_, .data .drRead, _, _, rfl⟩
  | t1 v =>
    simp only [stepRxMicro]
    split
    · next f _ => exact ⟨s, .data .stay, _, _, s.raiseDisp_eq f⟩
    · split
      · exact ⟨_, .data (.putByte s.rx.cur (firstByte s.par.byteOrder v)), _, _, rfl⟩
      · exact ⟨_, .data (.writeUnit w s.rx.cur v), _, _, rfl⟩
  | t1b v => exact ⟨_, .data (.putByte (s.rx.cur + 1) (secondByte s.par.byteOrder v)), _, _, rfl⟩
  | t2 => exact ⟨_, .desc .rx { s.rx with cur := s.rx.cur + unitBytes w } hd id, _, _, rfl⟩
  | t3 => exact ⟨_, .desc .rx { s.rx with len := s.rx.len - unitBytes w } hd id, _, _, rfl⟩
  | t4 => simp only [stepRxMicro, tailMicro]; split <;> exact ⟨s, .data .stay, _, _, rfl⟩

/-- A line of a close moves CR2, its own descriptor, or its span. -/
theorem closeMicro_move {d : Dir} {ln : CloseLine} {s : State} (hd : serving d s.dph = true) :
    ∃ u, DispMove s u ∧ ∃ p f, closeMicro d ln s = u.dispSet p f := by
  cases ln with
  | k0 => exact ⟨s, .data .stay, _, _, rfl⟩
  | k1 c2 => exact ⟨_, .writeCr2 (clrBit c2 (enableBit d)), _, _, rfl⟩
  | k2 => exact ⟨_, .desc d { s.desc d with cur := nullAddr } hd id, _, _, rfl⟩
  | k3 => exact ⟨_, .desc d { s.desc d with len := 0 } hd id, _, _, rfl⟩
  | k4 => exact ⟨_, .desc d { s.desc d with sel := .none } hd id, _, _, rfl⟩
  | k5 => exact ⟨_, .release d { s.desc d with state := .free } none hd (fun _ => rfl), _, _, rfl⟩

/-- What a line of DISP has done. -/
theorem dispMicro_move (s : State) : ∃ u, DispMove s u ∧ ∃ p f, dispMicro s = u.dispSet p f := by
  have gate (d : Dir) (e v : Half) : ∃ u, DispMove s u ∧ ∃ p f, gateMicro d e v s = u.dispSet p f := by
    obtain ⟨p, f, h⟩ := gateMicro_frame d e v s
    exact ⟨s, .data .stay, p, f, h⟩
  unfold dispMicro
  split
  · exact ⟨s, .data .stay, s.dph, s.dfault, rfl⟩
  · exact ⟨s, .data .stay, _, _, rfl⟩
  · exact ⟨s, .data .stay, _, _, rfl⟩
  · exact gate _ _ _
  · exact ⟨s, .data .stay, _, _, rfl⟩
  · exact ⟨s, .data .stay, _, _, rfl⟩
  · exact gate _ _ _
  · next h => exact stepTxMicro_move (by rw [h]; rfl)
  · next h => exact stepRxMicro_move (by rw [h]; rfl)
  · next h => exact closeMicro_move (by rw [h]; simp [serving])

/-! ### What the moves keep -/

/-- A transfer of data leaves the parameters and CR1 (R30). -/
theorem DataMove.par {s u : State} (h : DataMove s u) : u.par = s.par := by
  cases h <;> simp

theorem DataMove.cr1 {s u : State} (h : DataMove s u) : u.cr1 = s.cr1 := by
  cases h <;> simp

/-- A transfer of data leaves both descriptors and both spans (R31, R46). -/
theorem DataMove.desc {s u : State} (h : DataMove s u) (d : Dir) : u.desc d = s.desc d := by
  cases h <;> cases d <;> simp

theorem DataMove.span {s u : State} (h : DataMove s u) (d : Dir) : u.span d = s.span d := by
  cases h <;> cases d <;> simp [State.span]

/-- A transfer of data leaves SR, or clears RXNE, or clears TXE (R38, R40). -/
theorem DataMove.sr {s u : State} (h : DataMove s u) : u.sr = s.sr ∨ u.sr = clrBit s.sr 0 ∨ u.sr = clrBit s.sr 1 := by
  cases h with
  | stay => exact .inl rfl
  | drWr w v => exact .inr (.inr rfl)
  | drRead => exact .inr (.inl rfl)
  | putByte a v => exact .inl rfl
  | writeUnit w a v => exact .inl (s.writeUnit_sr w a v)

/-- A transfer of data keeps the memory canonical. -/
theorem DataMove.mem_wf {s u : State} (h : DataMove s u) (hw : s.mem.wf = true) : u.mem.wf = true := by
  cases h with
  | putByte a v => exact State.putByte_wf a v hw
  | writeUnit w a v => exact State.writeUnit_wf w a v hw
  | _ => exact hw

/-- A transfer of data only adds to the log (R43). -/
theorem DataMove.txlog {s u : State} (h : DataMove s u) : s.txlog <+: u.txlog := by
  cases h with
  | drWr w v => exact List.prefix_append s.txlog [logEntry w v]
  | writeUnit w a v => rw [State.writeUnit_txlog]
  | _ => exact List.prefix_refl _

/-- What a move that transfers no data leaves: the parameters, the memory, the log and SR. -/
def SameData (s u : State) : Prop := u.par = s.par ∧ u.mem = s.mem ∧ u.txlog = s.txlog ∧ u.sr = s.sr

theorem HostMove.data_or_same {s u : State} (h : HostMove s u) : DataMove s u ∨ SameData s u := by
  cases h with
  | data h => exact .inl h
  | _ => exact .inr (by simp [SameData])

theorem DispMove.data_or_same {s u : State} (h : DispMove s u) : DataMove s u ∨ SameData s u := by
  cases h with
  | data h => exact .inl h
  | _ => exact .inr (by simp [SameData])

/-- A line of HOST makes no direction FREE (R81). -/
theorem HostMove.busy {s u : State} (h : HostMove s u) {d : Dir} (hb : (s.desc d).state = .busy) :
    (u.desc d).state = .busy := by
  have set {e : Dir} {x : Desc} (hx : (s.desc e).state = .busy → x.state = .busy) :
      ((s.setDesc e x).desc d).state = .busy := by
    by_cases hde : d = e
    · subst hde
      rw [State.desc_setDesc]
      exact hx hb
    · rw [State.desc_setDesc_ne s x hde]
      exact hb
  cases h with
  | data h => rw [h.desc d]; exact hb
  | record c => cases d <;> exact hb
  | writeCr1 v _ => rw [State.desc_regWrite]; exact hb
  | writeCr2 v => rw [State.desc_regWrite]; exact hb
  | desc e x hx => exact set hx
  | lend e x sp hx => rw [State.desc_setSpan]; exact set hx

/-- A line of DISP makes no direction BUSY (R81). -/
theorem DispMove.free {s u : State} (h : DispMove s u) {d : Dir} (hf : (s.desc d).state = .free) :
    (u.desc d).state = .free := by
  have set {e : Dir} {x : Desc} (hx : (s.desc e).state = .free → x.state = .free) :
      ((s.setDesc e x).desc d).state = .free := by
    by_cases hde : d = e
    · subst hde
      rw [State.desc_setDesc]
      exact hx hf
    · rw [State.desc_setDesc_ne s x hde]
      exact hf
  cases h with
  | data h => rw [h.desc d]; exact hf
  | writeCr2 v => rw [State.desc_regWrite]; exact hf
  | desc e x _ hx => exact set hx
  | release e x sp _ hx => rw [State.desc_setSpan]; exact set hx

/-- DISP serves one direction at a time (R183). -/
theorem serving_unique {d e : Dir} {p : DispPhase} (hd : serving d p = true) (he : serving e p = true) : d = e := by
  cases p <;> simp_all [serving]

/-- The span of one direction written leaves the other's (R31, R46). -/
theorem State.span_setSpan_ne (s : State) {d e : Dir} (sp : Option Span) (he : e ≠ d) :
    (s.setSpan d sp).span e = s.span e := by
  cases d <;> cases e <;> simp [State.span, State.setSpan] at he ⊢

/-- A line of DISP leaves the descriptor and the span of the direction it does not serve (R31). -/
theorem DispMove.other {s u : State} (h : DispMove s u) {d e : Dir} (hd : serving d s.dph = true) (he : e ≠ d) :
    u.desc e = s.desc e ∧ u.span e = s.span e := by
  have set {c : Dir} (x : Desc) (hc : serving c s.dph = true) :
      (s.setDesc c x).desc e = s.desc e ∧ (s.setDesc c x).span e = s.span e := by
    cases serving_unique hd hc
    refine ⟨State.desc_setDesc_ne s x he, ?_⟩
    cases d <;> cases e <;> rfl
  cases h with
  | data h => exact ⟨h.desc e, h.span e⟩
  | writeCr2 v => exact ⟨State.desc_regWrite s .cr2 v e, by cases e <;> rfl⟩
  | desc c x hc _ => exact set x hc
  | release c x sp hc _ =>
    rw [State.desc_setSpan]
    cases serving_unique hd hc
    exact ⟨(set x hc).1, (State.span_setSpan_ne _ sp he).trans (set x hc).2⟩

/-! ### What every step keeps -/

/-- A property of the data alone, not of the phases, the faults, the response or the schedule, is kept by every step that
transfers of data and PERIPH keep it. -/
theorem Kept.of_data {P : State → Prop} (same : ∀ s u, P s → SameData s u → P u)
    (data : ∀ s u, P s → DataMove s u → P u) (perip : ∀ s a, P s → P (periphStep a s)) : Kept P where
  turn s _ _ _ hp := same s _ hp ⟨rfl, rfl, rfl, rfl⟩
  begun s _ hp _ := same s _ hp ⟨rfl, rfl, rfl, rfl⟩
  host s t hp _ _ h := by
    obtain ⟨u, hu, p, f, r, rfl⟩ := hostMicro_move h
    refine same u _ ?_ ⟨rfl, rfl, rfl, rfl⟩
    exact hu.data_or_same.elim (data s u hp) (same s u hp)
  enter s hp _ := same s _ hp ⟨rfl, rfl, rfl, rfl⟩
  disp s hp _ := by
    obtain ⟨u, hu, p, f, h⟩ := dispMicro_move s
    rw [h]
    refine same u _ ?_ ⟨rfl, rfl, rfl, rfl⟩
    exact hu.data_or_same.elim (data s u hp) (same s u hp)
  perip := perip

/-- Settles O15: only a transfer of data writes memory, and it keeps the canonical form. -/
theorem stepKeepsMemoryCanonical : Obligations.StepKeepsMemoryCanonical := by
  intro s t hw h
  refine (Kept.of_data (P := fun u => u.mem.wf = true) ?_ (fun _ _ hp hu => hu.mem_wf hp) ?_).step hw h
  · rintro s u hp ⟨-, hmem, -⟩
    rwa [hmem]
  · intro s a hp
    obtain ⟨x, y, he⟩ := periphStep_frame a s
    rwa [he]

/-- Settles O46: no move writes a parameter. -/
theorem parametersNeverChange : Obligations.ParametersNeverChange := by
  intro s t h
  refine step_relates (R := fun s u => u.par = s.par) (Kept.of_data ?_ ?_ ?_) rfl h
  · rintro u v hp ⟨hpar, -⟩
    exact hpar.trans hp
  · intro u v hp hv
    exact hv.par.trans hp
  · intro u a hp
    obtain ⟨x, y, he⟩ := periphStep_frame a u
    rwa [he]

/-- Settles O49: only a transfer of data writes the log, and it adds to its end. -/
theorem txlogOnlyGrows : Obligations.TxlogOnlyGrows := by
  intro s t h
  refine step_relates (R := fun s u => s.txlog <+: u.txlog) (Kept.of_data ?_ ?_ ?_) (List.prefix_refl _) h
  · rintro u v hp ⟨-, -, hlog, -⟩
    rwa [hlog]
  · intro u v hp hv
    exact hp.trans hv.txlog
  · intro u a hp
    obtain ⟨x, y, he⟩ := periphStep_frame a u
    rwa [he]

/-! ### What one line of each agent keeps -/

@[simp] theorem State.desc_hostSet (s : State) (p : HostPhase) (f : Option Fault) (r : Option RespCode) (d : Dir) :
    (s.hostSet p f r).desc d = s.desc d := by
  cases d <;> rfl

@[simp] theorem State.desc_dispSet (s : State) (p : DispPhase) (f : Option Fault) (d : Dir) :
    (s.dispSet p f).desc d = s.desc d := by
  cases d <;> rfl

@[simp] theorem State.span_dispSet (s : State) (p : DispPhase) (f : Option Fault) (d : Dir) :
    (s.dispSet p f).span d = s.span d := by
  cases d <;> rfl

/-- Settles O47: a line of HOST makes no direction FREE, a line of DISP none BUSY, and PERIPH writes no descriptor. -/
theorem busStateHandOff : Obligations.BusStateHandOff := by
  intro s t d a
  refine ⟨fun h hb => ?_, fun hf => ?_, ?_⟩
  · obtain ⟨u, hu, p, f, r, rfl⟩ := hostMicro_move h
    rw [State.desc_hostSet]
    exact hu.busy hb
  · obtain ⟨u, hu, p, f, he⟩ := dispMicro_move s
    rw [he, State.desc_dispSet]
    exact hu.free hf
  · obtain ⟨x, y, he⟩ := periphStep_frame a s
    rw [he]
    cases d <;> rfl

/-- Settles O48: SR is written by transfers of data only, and CR1 by the move that only N1 makes. -/
theorem blockWritesToSrAndCr1 : Obligations.BlockWritesToSrAndCr1 := by
  intro s t a
  refine ⟨?sr, ?hostCr1, ?dispCr1, ?periphCr1⟩
  case sr =>
    have same {u : State} (hu : DataMove s u ∨ SameData s u) :
        u.sr = s.sr ∨ u.sr = clrBit s.sr 0 ∨ u.sr = clrBit s.sr 1 := by
      rcases hu with h | ⟨-, -, -, h⟩
      · exact h.sr
      · exact .inl h
    rintro (h | h)
    · obtain ⟨u, hu, p, f, r, rfl⟩ := hostMicro_move h
      exact same (u := u) hu.data_or_same
    · obtain ⟨u, hu, p, f, he⟩ := dispMicro_move s
      rw [← h, he]
      exact same (u := u) hu.data_or_same
  case hostCr1 =>
    intro h hn1
    obtain ⟨u, hu, p, f, r, rfl⟩ := hostMicro_move h
    show u.cr1 = s.cr1
    cases hu with
    | data hd => exact hd.cr1
    | writeCr1 v hph => exact absurd hph (hn1 _)
    | _ => simp
  case dispCr1 =>
    obtain ⟨u, hu, p, f, he⟩ := dispMicro_move s
    rw [he]
    show u.cr1 = s.cr1
    cases hu with
    | data hd => exact hd.cr1
    | _ => simp
  case periphCr1 =>
    obtain ⟨x, y, he⟩ := periphStep_frame a s
    rw [he]

/-- Settles O50: a line of a step or close moves the direction it serves. -/
theorem directionsIndependent : Obligations.DirectionsIndependent := by
  have other (s : State) {d e : Dir} (hd : serving d s.dph = true) (he : e ≠ d) :
      (dispMicro s).desc e = s.desc e ∧ (dispMicro s).span e = s.span e := by
    obtain ⟨u, hu, p, f, h⟩ := dispMicro_move s
    rw [h, State.desc_dispSet, State.span_dispSet]
    exact hu.other hd he
  exact fun s => ⟨fun h => other s (e := .rx) h (by decide), fun h => other s (e := .tx) h (by decide)⟩

/-- A step of PERIPH under RefEnv is none, one or two steps of FreeEnv (R202, R204 to R206). -/
theorem periphRef_refines_free (a : PeriphAct) (s : State) :
    ∃ acts : List PeriphAct, periphRef a s = acts.foldl (fun t b => periphFree b t) s := by
  cases a with
  | txe b =>
    cases b
    · exact ⟨[], rfl⟩
    · simp only [periphRef]
      split
      · exact ⟨[], rfl⟩
      · exact ⟨[.txe true, .bsy true], rfl⟩
  | bsy b =>
    cases b
    · simp only [periphRef]
      split
      · exact ⟨[.bsy false], rfl⟩
      · exact ⟨[], rfl⟩
    · exact ⟨[], rfl⟩
  | clearRxne => exact ⟨[], rfl⟩
  | rx v =>
    simp only [periphRef]
    split
    · exact ⟨[], rfl⟩
    · exact ⟨[.rx v], rfl⟩
  | opaqueBit k b => exact ⟨[], rfl⟩

/-- Settles O45: PERIPH writes SR and DR_RX only, and each step of RefEnv is a sequence of steps of FreeEnv. -/
theorem periphChangesOnlySrAndDrRx : Obligations.PeriphChangesOnlySrAndDrRx := by
  intro a s
  refine ⟨?_, periphRef_refines_free a s⟩
  obtain ⟨x, y, he⟩ := periphStep_frame a s
  rw [he]

end Sys2Proof.Machine
end

section
/-! PROOFS. The invariant of R34 at micro-step grain: a FREE descriptor is closed but for what a submit in progress has
written, and steps and closes run on a BUSY one. -/

namespace Sys2Proof.Machine

open Sys2Proof

/-! ### The invariant, one direction at a time -/

/-- What `ClosedInv` says of one direction; it reads the descriptor, the submit in progress and DISP's phase. -/
structure ClosedAt (s : State) (d : Dir) : Prop where
  bound  : (s.desc d).sel ≠ .none → (s.desc d).state = .busy
  closed : FreeIsClosed s d
  submit : SubmitProgress s d
  close  : CloseProgress s d

theorem closedInv_iff (s : State) : ClosedInv s ↔ ∀ d, ClosedAt s d :=
  ⟨fun h d => ⟨h.bound d, h.closed d, h.submit d, h.close d⟩,
    fun h => ⟨fun d => (h d).bound, fun d => (h d).closed, fun d => (h d).submit, fun d => (h d).close⟩⟩

section
variable {s t : State} {d : Dir}

theorem FreeIsClosed.congr (h : FreeIsClosed s d) (hdesc : t.desc d = s.desc d)
    (hsub : t.submitting d = s.submitting d) : FreeIsClosed t d := by
  unfold FreeIsClosed
  rw [hdesc, hsub]
  exact h

/-- A change elsewhere leaves what is said of a direction. -/
theorem ClosedAt.congr (h : ClosedAt s d) (hdesc : t.desc d = s.desc d) (hsub : t.submitting d = s.submitting d)
    (hdph : t.dph = s.dph) : ClosedAt t d where
  bound := by rw [hdesc]; exact h.bound
  closed := h.closed.congr hdesc hsub
  submit := by unfold SubmitProgress; rw [hdesc, hsub, hdph]; exact h.submit
  close := by unfold CloseProgress; rw [hdesc, hdph]; exact h.close

/-- Where DISP serves no step or close of a direction there is none in progress (R165). -/
theorem CloseProgress.of_not_serving (h : serving d s.dph = false) : CloseProgress s d := by
  have off (ln : CloseLine) : s.dph ≠ .close d ln := by
    intro hdph
    simp [hdph, serving] at h
  exact ⟨fun h' => by simp [h] at h', fun h' => absurd h' (off _), fun h' => absurd h' (off _),
    fun h' => absurd h' (off _)⟩

/-- DISP turned away from a direction leaves what is said of it. -/
theorem ClosedAt.away (h : ClosedAt s d) (hdesc : t.desc d = s.desc d) (hsub : t.submitting d = s.submitting d)
    (hserv : serving d t.dph = false) : ClosedAt t d where
  bound := by rw [hdesc]; exact h.bound
  closed := h.closed.congr hdesc hsub
  submit := by
    have hs := h.submit
    unfold SubmitProgress at hs ⊢
    rw [hdesc, hsub, hserv]
    split <;> simp_all
  close := .of_not_serving hserv

/-- While DISP serves a direction no submit of it has more to populate (R150, R152). -/
theorem SubmitProgress.of_served (h : ClosedAt s d) (hserv : serving d s.dph = true)
    (hsub : t.submitting d = s.submitting d) : SubmitProgress t d := by
  have hbusy := h.close.1 hserv
  have hs := h.submit
  unfold SubmitProgress at hs ⊢
  rw [hsub]
  split <;> simp_all

/-- A line of a step or close that leaves its direction BUSY. -/
theorem ClosedAt.served (h : ClosedAt s d) (hserv : serving d s.dph = true) (hsub : t.submitting d = s.submitting d)
    (hbusy : (t.desc d).state = .busy) (hclose : CloseProgress t d) : ClosedAt t d where
  bound _ := hbusy
  closed hfree := by rw [hbusy] at hfree; cases hfree
  submit := .of_served h hserv hsub
  close := hclose

end
/-- A close of a BUSY direction has nothing cleared before K3 (R165). -/
theorem CloseProgress.of_busy {t : State} {d : Dir} (hbusy : (t.desc d).state = .busy)
    (hdph : ∀ ln, t.dph = .close d ln → ln = .k0 ∨ (∃ c2, ln = .k1 c2) ∨ ln = .k2) : CloseProgress t d := by
  refine ⟨fun _ => hbusy, ?_, ?_, ?_⟩ <;>
  · intro h
    rcases hdph _ h with h | ⟨_, h⟩ | h <;> cases h

/-! ### The lines of DISP -/

theorem State.submitting_congr {s t : State} (h : t.hph = s.hph) (d : Dir) : t.submitting d = s.submitting d := by
  unfold State.submitting
  rw [h]

theorem DataMove.phases {s u : State} (h : DataMove s u) : u.hph = s.hph ∧ u.dph = s.dph := by
  cases h <;> simp

/-- A line of DISP leaves HOST's phase (R231). -/
theorem dispMicro_hph (s : State) : (dispMicro s).hph = s.hph := by
  obtain ⟨u, hu, p, f, h⟩ := dispMicro_move s
  rw [h]
  show u.hph = s.hph
  cases hu with
  | data h => exact h.phases.1
  | _ => simp

/-- Where a line of a transmit step goes: a line of the step, its close, or I3 (R161, R162). -/
theorem stepTxMicro_dph {w : FrameWidth} {ln : TxLine} {s : State} (h : s.dph = .stepTx w ln) :
    (∃ ln', (stepTxMicro w ln s).dph = .stepTx w ln') ∨ (stepTxMicro w ln s).dph = .close .tx .k0 ∨
      (stepTxMicro w ln s).dph = .i3 := by
  cases ln with
  | t0 =>
    simp only [stepTxMicro]
    split
    · exact .inl ⟨.t0, by simp [h]⟩
    · split <;> exact .inl ⟨_, rfl⟩
  | t0b first => exact .inl ⟨_, rfl⟩
  | t1 x => exact .inl ⟨_, rfl⟩
  | t2 => exact .inl ⟨_, rfl⟩
  | t3 => exact .inl ⟨_, rfl⟩
  | t4 =>
    simp only [stepTxMicro, tailMicro]
    split
    · exact .inr (.inl rfl)
    · exact .inr (.inr rfl)

/-- Where a line of a receive step goes: a line of the step, its close, or the return (R163, R164). -/
theorem stepRxMicro_dph {w : FrameWidth} {ln : RxLine} {s : State} (h : s.dph = .stepRx w ln) :
    (∃ ln', (stepRxMicro w ln s).dph = .stepRx w ln') ∨ (stepRxMicro w ln s).dph = .close .rx .k0 ∨
      (stepRxMicro w ln s).dph = .idle := by
  cases ln with
  | t0 => exact .inl ⟨_, rfl⟩
  | t1 v =>
    simp only [stepRxMicro]
    split
    · exact .inl ⟨.t1 v, by simp [h]⟩
    · split <;> exact .inl ⟨_, rfl⟩
  | t1b v => exact .inl ⟨_, rfl⟩
  | t2 => exact .inl ⟨_, rfl⟩
  | t3 => exact .inl ⟨_, rfl⟩
  | t4 =>
    simp only [stepRxMicro, tailMicro]
    split
    · exact .inr (.inl rfl)
    · exact .inr (.inr rfl)

/-- A line of a step leaves the bus state and the step reference of its direction (R160). -/
theorem stepTxMicro_state_sel (w : FrameWidth) (ln : TxLine) (s : State) :
    (stepTxMicro w ln s).tx.state = s.tx.state ∧ (stepTxMicro w ln s).tx.sel = s.tx.sel := by
  cases ln with
  | t0 =>
    simp only [stepTxMicro]
    split
    · simp
    · split <;> exact ⟨rfl, rfl⟩
  | t4 => simp only [stepTxMicro, tailMicro]; split <;> exact ⟨rfl, rfl⟩
  | _ => exact ⟨rfl, rfl⟩

theorem stepRxMicro_state_sel (w : FrameWidth) (ln : RxLine) (s : State) :
    (stepRxMicro w ln s).rx.state = s.rx.state ∧ (stepRxMicro w ln s).rx.sel = s.rx.sel := by
  cases ln with
  | t1 v =>
    simp only [stepRxMicro]
    split
    · simp
    · split <;> simp
  | t4 => simp only [stepRxMicro, tailMicro]; split <;> exact ⟨rfl, rfl⟩
  | _ => exact ⟨rfl, rfl⟩

/-- A line of a step or close leads to no line of the other direction's (R183). -/
theorem dispMicro_not_serving_other {s : State} {d e : Dir} (hserv : serving d s.dph = true) (he : e ≠ d) :
    serving e (dispMicro s).dph = false := by
  unfold dispMicro
  split <;> rename_i hdph <;> rw [hdph] at hserv
  case h_8 =>
    obtain rfl : d = .tx := by simpa [serving] using hserv
    rcases stepTxMicro_dph hdph with ⟨ln', h⟩ | h | h <;> rw [h] <;> simp [serving, he]
  case h_9 =>
    obtain rfl : d = .rx := by simpa [serving] using hserv
    rcases stepRxMicro_dph hdph with ⟨ln', h⟩ | h | h <;> rw [h] <;> simp [serving, he]
  case h_10 d' ln =>
    obtain rfl : d = d' := by simpa [serving] using hserv
    cases ln with
    | k5 => cases d <;> rfl
    | _ => simp [closeMicro, serving, he]
  all_goals exact absurd hserv (by simp [serving])

/-- A line of a close keeps what is said of its direction; its last one leaves the descriptor closed (R165, R166). -/
theorem ClosedAt.closeMicro {s : State} {d : Dir} {ln : CloseLine} (h : ClosedAt s d) (hdph : s.dph = .close d ln) :
    ClosedAt (closeMicro d ln s) d := by
  have hserv : serving d s.dph = true := by simp [hdph, serving]
  have hbusy := h.close.1 hserv
  obtain ⟨-, hk3, hk4, hk5⟩ := h.close
  rw [hdph] at hk3 hk4 hk5
  have hsub : (Machine.closeMicro d ln s).submitting d = s.submitting d := by
    refine State.submitting_congr ?_ d
    have hline : dispMicro s = Machine.closeMicro d ln s := by rw [dispMicro, hdph]
    rw [← hline, dispMicro_hph]
  cases ln with
  | k0 => exact h.served hserv hsub hbusy (.of_busy hbusy (by simp [Machine.closeMicro]))
  | k1 c2 =>
    have hbusy' : ((Machine.closeMicro d (.k1 c2) s).desc d).state = .busy := by
      cases d <;> exact hbusy
    exact h.served hserv hsub hbusy' (.of_busy hbusy' (by simp [Machine.closeMicro]))
  | k2 =>
    have hdesc : (Machine.closeMicro d .k2 s).desc d = { s.desc d with cur := nullAddr } := by cases d <;> rfl
    refine h.served hserv hsub (by rw [hdesc]; exact hbusy) ⟨fun _ => by rw [hdesc]; exact hbusy, ?_, ?_, ?_⟩
    · exact fun _ => by rw [hdesc]
    · exact fun h => by cases h
    · exact fun h => by cases h
  | k3 =>
    have hdesc : (Machine.closeMicro d .k3 s).desc d = { s.desc d with len := 0 } := by cases d <;> rfl
    refine h.served hserv hsub (by rw [hdesc]; exact hbusy) ⟨fun _ => by rw [hdesc]; exact hbusy, ?_, ?_, ?_⟩
    · exact fun h => by cases h
    · exact fun _ => by rw [hdesc]; exact ⟨hk3 rfl, rfl⟩
    · exact fun h => by cases h
  | k4 =>
    have hdesc : (Machine.closeMicro d .k4 s).desc d = { s.desc d with sel := .none } := by cases d <;> rfl
    refine h.served hserv hsub (by rw [hdesc]; exact hbusy) ⟨fun _ => by rw [hdesc]; exact hbusy, ?_, ?_, ?_⟩
    · exact fun h => by cases h
    · exact fun h => by cases h
    · exact fun _ => by rw [hdesc]; exact ⟨(hk4 rfl).1, (hk4 rfl).2, rfl⟩
  | k5 =>
    obtain ⟨hcur, hlen, hsel⟩ := hk5 rfl
    have hdesc : (Machine.closeMicro d .k5 s).desc d = Desc.closed := by
      have : (Machine.closeMicro d .k5 s).desc d = { s.desc d with state := .free } := by cases d <;> rfl
      rw [this, Desc.closed, ← hcur, ← hlen, ← hsel]
    refine ⟨fun hne => absurd (by rw [hdesc]; rfl) hne, ?_, .of_served h hserv hsub, .of_not_serving (by cases d <;> rfl)⟩
    intro _
    rw [hdesc]
    split
    · exact ⟨rfl, rfl⟩
    · rfl
    · rfl

/-- A gate keeps what is said of either direction: it opens onto a bound step only, which is BUSY (R181, R185). -/
theorem ClosedAt.gateMicro {s : State} {c d : Dir} {e v : Half} (h : ClosedAt s c)
    (hserv : ∀ x, serving x s.dph = false) : ClosedAt (gateMicro d e v s) c := by
  have hsub (p : DispPhase) : ({ s with dph := p } : State).submitting c = s.submitting c := rfl
  have hdesc (p : DispPhase) : ({ s with dph := p } : State).desc c = s.desc c := by cases c <;> rfl
  cases hgate : gateOpen d e v with
  | false =>
    rw [gateMicro_closed s hgate]
    exact h.away (hdesc _) (hsub _) (by cases d <;> rfl)
  | true =>
    have bound {w : FrameWidth} (hsel : (s.desc d).sel = Sel.ofWidth w) : ClosedAt (Machine.gateMicro d e v s) c := by
      rw [gateMicro_bound hgate hsel]
      by_cases hcd : c = d
      · subst hcd
        have hne : (s.desc c).sel ≠ .none := by rw [hsel]; cases w <;> decide
        have hbusy := h.bound hne
        have hbusy' : (({ s with dph := stepEntry c w } : State).desc c).state = .busy := by rw [hdesc]; exact hbusy
        refine ⟨fun _ => hbusy', h.closed.congr (hdesc _) (hsub _), ?_, .of_busy hbusy' ?_⟩
        · have hs := h.submit
          unfold SubmitProgress at hs ⊢
          rw [hdesc, hsub]
          split <;> simp_all
        · cases c <;> simp [stepEntry]
      · exact h.away (hdesc _) (hsub _) (by cases d <;> simp [stepEntry, serving, hcd])
    have stuck (f : Fault) : ClosedAt (s.raiseDisp f) c := by
      rw [s.raiseDisp_eq f]
      exact h.congr (State.desc_dispSet s _ _ c) rfl rfl
    cases hsel : (s.desc d).sel with
    | none => rw [gateMicro_null hgate hsel]; exact stuck _
    | reserved => rw [gateMicro_reserved hgate hsel]; exact stuck _
    | w8 => exact bound (w := .w8) hsel
    | w16 => exact bound (w := .w16) hsel

/-- A line of DISP keeps the invariant. -/
theorem ClosedAt.dispMicro {s : State} {c : Dir} (h : ClosedAt s c) : ClosedAt (dispMicro s) c := by
  have move (p : DispPhase) (hp : serving c p = false) : ClosedAt { s with dph := p } c :=
    h.away (by cases c <;> rfl) rfl hp
  have other {d : Dir} (hserv : serving d s.dph = true) (hcd : c ≠ d) : ClosedAt (Machine.dispMicro s) c := by
    obtain ⟨u, hu, p, f, he⟩ := dispMicro_move s
    refine h.away ?_ (State.submitting_congr (dispMicro_hph s) c) (dispMicro_not_serving_other hserv hcd)
    rw [he, State.desc_dispSet]
    exact (hu.other hserv hcd).1
  cases hdph : s.dph with
  | idle => rw [Machine.dispMicro, hdph]; exact h
  | i0 => rw [Machine.dispMicro, hdph]; exact move _ rfl
  | i1 e => rw [Machine.dispMicro, hdph]; exact move _ rfl
  | i3 => rw [Machine.dispMicro, hdph]; exact move _ rfl
  | i4 e => rw [Machine.dispMicro, hdph]; exact move _ rfl
  | i2 e v => rw [Machine.dispMicro, hdph]; exact h.gateMicro (by simp [hdph, serving])
  | i5 e v => rw [Machine.dispMicro, hdph]; exact h.gateMicro (by simp [hdph, serving])
  | stepTx w ln =>
    have hserv : serving .tx s.dph = true := by rw [hdph]; rfl
    have hline : Machine.dispMicro s = stepTxMicro w ln s := by rw [Machine.dispMicro, hdph]
    by_cases hc : c = .tx
    · subst hc
      have hbusy : ((Machine.dispMicro s).desc .tx).state = .busy := by
        rw [hline]
        exact (stepTxMicro_state_sel w ln s).1.trans (h.close.1 hserv)
      refine h.served hserv (State.submitting_congr (dispMicro_hph s) .tx) hbusy (.of_busy hbusy ?_)
      rw [hline]
      rcases stepTxMicro_dph hdph with ⟨ln', h⟩ | h | h <;> rw [h] <;> simp
    · exact other hserv hc
  | stepRx w ln =>
    have hserv : serving .rx s.dph = true := by rw [hdph]; rfl
    have hline : Machine.dispMicro s = stepRxMicro w ln s := by rw [Machine.dispMicro, hdph]
    by_cases hc : c = .rx
    · subst hc
      have hbusy : ((Machine.dispMicro s).desc .rx).state = .busy := by
        rw [hline]
        exact (stepRxMicro_state_sel w ln s).1.trans (h.close.1 hserv)
      refine h.served hserv (State.submitting_congr (dispMicro_hph s) .rx) hbusy (.of_busy hbusy ?_)
      rw [hline]
      rcases stepRxMicro_dph hdph with ⟨ln', h⟩ | h | h <;> rw [h] <;> simp
    · exact other hserv hc
  | close d ln =>
    by_cases hc : c = d
    · subst hc
      rw [Machine.dispMicro, hdph]
      exact h.closeMicro hdph
    · exact other (by simp [hdph, serving]) hc

/-! ### The lines of HOST -/

/-- HOST stands at a line of a submit. -/
def HostPhase.inSubmit : HostPhase → Bool
  | .submit _ _ _ _ => true
  | .idle => false
  | .init _ _ => false
  | .flag _ _ => false
  | .getState _ _ => false
  | .blk _ _ _ _ => false

theorem State.submitting_of_not_inSubmit {s : State} (h : s.hph.inSubmit = false) (d : Dir) :
    s.submitting d = none := by
  unfold State.submitting
  split
  · next hph => simp [hph, HostPhase.inSubmit] at h
  · rfl

/-- The first line of a command is no later line of a submit than S0. -/
theorem submitting_hostEntry (s : State) (i : Instr) (d : Dir) :
    ({ s with hph := hostEntry i } : State).submitting d = none ∨
      ({ s with hph := hostEntry i } : State).submitting d = some .s0 := by
  cases i <;> cases d <;> simp [State.submitting, hostEntry]

/-- A line of a blocking command leads to a line of it, or ends it. -/
theorem blkMicro_not_inSubmit {d : Dir} {buf : Addr} {len : Len} {ln : BlkLine} {s : State}
    (h : s.hph = .blk d buf len ln) : (blkMicro d buf len ln s).hph.inSubmit = false := by
  have stay : s.hph.inSubmit = false := by rw [h]; rfl
  cases d with
  | tx =>
    cases ln with
    | b4 p n w =>
      simp only [blkMicro, blkTxMicro]
      split
      · rw [State.raiseHost_hph]; exact stay
      · split <;> rfl
    | b5b p n w x => exact stay
    | b1 p n => simp only [blkMicro, blkTxMicro]; split <;> rfl
    | b2 p n => simp only [blkMicro, blkTxMicro]; split <;> rfl
    | b7 => simp only [blkMicro, blkTxMicro]; split <;> rfl
    | _ => rfl
  | rx =>
    cases ln with
    | b5 p n w v =>
      simp only [blkMicro, blkRxMicro]
      split
      · rw [State.raiseHost_hph]; exact stay
      · split <;> rfl
    | b4b p n w first => exact stay
    | b8 => exact stay
    | b1 p n => simp only [blkMicro, blkRxMicro]; split <;> rfl
    | b2 p n => simp only [blkMicro, blkRxMicro]; split <;> rfl
    | _ => rfl

theorem DataMove.cr2 {s u : State} (h : DataMove s u) : u.cr2 = s.cr2 := by
  cases h <;> simp

/-- A line of a command other than a submit leaves both descriptors and CR2, and starts no submit. -/
theorem hostMicro_of_not_inSubmit {s t : State} (hs : s.hph.inSubmit = false) (h : hostMicro s = .next t) :
    (∀ d, t.desc d = s.desc d) ∧ t.cr2 = s.cr2 ∧ t.hph.inSubmit = false := by
  unfold hostMicro at h
  split at h
  · cases h; exact ⟨fun _ => rfl, rfl, hs⟩
  · next c ln _ =>
    cases ln with
    | n0 =>
      simp only [initMicro] at h
      split at h
      · cases h
      · cases h; exact ⟨fun d => by cases d <;> rfl, rfl, rfl⟩
    | n1 => cases h; exact ⟨fun d => by cases d <;> rfl, rfl, rfl⟩
  · next hph => simp [hph, HostPhase.inSubmit] at hs
  · next m ln _ => cases h; cases ln <;> exact ⟨fun d => by cases d <;> rfl, rfl, rfl⟩
  · next d' ln _ => cases h; cases ln <;> exact ⟨fun d => by cases d <;> rfl, rfl, rfl⟩
  · next d' buf len ln hph =>
    cases h
    obtain ⟨u, hu, p, f, r, he⟩ : ∃ u, DataMove s u ∧ ∃ p f r, blkMicro d' buf len ln s = u.hostSet p f r := by
      cases d'
      · exact blkTxMicro_move buf len ln s
      · exact blkRxMicro_move buf len ln s
    refine ⟨fun d => ?_, ?_, blkMicro_not_inSubmit hph⟩
    · rw [he, State.desc_hostSet]; exact hu.desc d
    · rw [he]; exact hu.cr2

/-- HOST at a line of a submit of d is at no line of the other direction's. -/
theorem State.submitting_of_submit {s : State} {d : Dir} {buf : Addr} {len : Len} {ln : SubmitLine}
    (h : s.hph = .submit d buf len ln) (e : Dir) : s.submitting e = if e = d then some ln else none := by
  unfold State.submitting
  rw [h]

/-- A line of a submit leaves the other direction's descriptor (R81). -/
theorem submitMicro_desc_other {d e : Dir} (he : e ≠ d) (buf : Addr) (len : Len) (ln : SubmitLine) (s : State) :
    (submitMicro d buf len ln s).desc e = s.desc e := by
  obtain ⟨rfl, rfl⟩ | ⟨rfl, rfl⟩ : (d = .tx ∧ e = .rx) ∨ (d = .rx ∧ e = .tx) := by
    cases d <;> cases e <;> simp_all
  all_goals
    cases ln with
    | s0 => simp only [submitMicro]; split <;> (try split) <;> rfl
    | s0b => simp only [submitMicro]; split <;> rfl
    | _ => rfl

/-- A line of a submit leads to a line of it, or ends it. -/
theorem submitMicro_hph (d : Dir) (buf : Addr) (len : Len) (ln : SubmitLine) (s : State) :
    (submitMicro d buf len ln s).hph = .idle ∨ ∃ ln', (submitMicro d buf len ln s).hph = .submit d buf len ln' := by
  cases ln with
  | s0 =>
    simp only [submitMicro]
    split
    · exact .inl rfl
    · split <;> exact .inr ⟨_, rfl⟩
  | s0b =>
    simp only [submitMicro]
    split
    · exact .inl rfl
    · exact .inr ⟨_, rfl⟩
  | s7 c2 => exact .inl rfl
  | _ => exact .inr ⟨_, rfl⟩

theorem submitMicro_dph (d : Dir) (buf : Addr) (len : Len) (ln : SubmitLine) (s : State) :
    (submitMicro d buf len ln s).dph = s.dph := by
  obtain ⟨u, hu, p, f, r, h⟩ := submitMicro_move d buf len ln s
  rw [h]
  show u.dph = s.dph
  cases hu with
  | data h => exact h.phases.2
  | _ => simp

/-- A line of a submit leaves what is said of the other direction. -/
theorem ClosedAt.submitMicro_other {s : State} {d e : Dir} {buf : Addr} {len : Len} {ln : SubmitLine}
    (h : ClosedAt s e) (hph : s.hph = .submit d buf len ln) (he : e ≠ d) : ClosedAt (submitMicro d buf len ln s) e := by
  refine h.congr (submitMicro_desc_other he buf len ln s) ?_ (submitMicro_dph d buf len ln s)
  rw [State.submitting_of_submit hph e, if_neg he]
  rcases submitMicro_hph d buf len ln s with hi | ⟨ln', hl⟩
  · exact State.submitting_of_not_inSubmit (by rw [hi]; rfl) e
  · rw [State.submitting_of_submit hl e, if_neg he]

/-- A FREE direction is not served (R165). -/
theorem ClosedAt.not_serving_of_free {s : State} {d : Dir} (h : ClosedAt s d) (hfree : (s.desc d).state = .free) :
    serving d s.dph = false := by
  by_contra hserv
  simp [h.close.1 (by simpa using hserv)] at hfree

/-- HOST before S4 on a FREE direction with no step bound. -/
theorem ClosedAt.of_free {t : State} {d : Dir} (hstate : (t.desc d).state = .free) (hsel : (t.desc d).sel = .none)
    (hserv : serving d t.dph = false) (hclosed : FreeIsClosed t d)
    (hline : ∀ ln, t.submitting d = some ln → ln ≠ .s4 ∧ ∀ c1, ln ≠ .s5 c1) : ClosedAt t d where
  bound h := absurd hsel h
  closed := hclosed
  submit := by
    unfold SubmitProgress
    split
    · exact ⟨hstate, hsel⟩
    · exact ⟨hstate, hsel⟩
    · exact ⟨hstate, hsel⟩
    · exact ⟨hstate, hsel⟩
    · next h => exact absurd rfl (hline _ h).1
    · next h => exact absurd rfl ((hline _ h).2 _)
    · trivial
  close := .of_not_serving hserv

/-- HOST at S4 or later on a BUSY direction that DISP does not serve. -/
theorem ClosedAt.of_busy {t : State} {d : Dir} (hstate : (t.desc d).state = .busy) (hserv : serving d t.dph = false)
    (hline : t.submitting d = some .s6 ∨
      (t.desc d).sel = .none ∧ (t.submitting d = some .s4 ∨ ∃ c1, t.submitting d = some (.s5 c1))) : ClosedAt t d where
  bound _ := hstate
  closed h := by rw [hstate] at h; cases h
  submit := by
    unfold SubmitProgress
    rcases hline with h | ⟨hsel, h | ⟨c1, h⟩⟩ <;> rw [h]
    · trivial
    · exact ⟨hstate, hsel, hserv⟩
    · exact ⟨hstate, hsel, hserv⟩
  close := .of_not_serving hserv

/-- HOST moved on to a line that says no more of the direction than it is closed when FREE. -/
theorem ClosedAt.past {s t : State} {d : Dir} (h : ClosedAt s d) (hdesc : t.desc d = s.desc d) (hdph : t.dph = s.dph)
    (hline : t.submitting d = none ∨ ∃ c2, t.submitting d = some (.s7 c2))
    (hfree : (s.desc d).state = .free → s.desc d = Desc.closed) : ClosedAt t d where
  bound := by rw [hdesc]; exact h.bound
  closed := by
    unfold FreeIsClosed
    rw [hdesc]
    rcases hline with h | ⟨c2, h⟩ <;> rw [h] <;> exact hfree
  submit := by
    unfold SubmitProgress
    rcases hline with h | ⟨c2, h⟩ <;> rw [h] <;> trivial
  close := by unfold CloseProgress; rw [hdesc, hdph]; exact h.close

/-- A line of a submit keeps what is said of its direction (R150, R151, R155). -/
theorem ClosedAt.submitMicro_own {s : State} {d : Dir} {buf : Addr} {len : Len} {ln : SubmitLine}
    (h : ClosedAt s d) (hph : s.hph = .submit d buf len ln) : ClosedAt (submitMicro d buf len ln s) d := by
  have hsub : s.submitting d = some ln := by rw [State.submitting_of_submit hph, if_pos rfl]
  have at_sub (u : State) (ln' : SubmitLine) : (u.atSubmit d buf len ln').submitting d = some ln' := by
    rw [State.submitting_of_submit rfl, if_pos rfl]
  have hclosed := h.closed
  have hprog := h.submit
  unfold FreeIsClosed at hclosed
  unfold SubmitProgress at hprog
  rw [hsub] at hclosed hprog
  have restart {u : State} {ln' : SubmitLine} (hdesc : u.desc d = s.desc d) (hdph : u.dph = s.dph)
      (hl : u.submitting d = some ln') (hln : ln' = .s0b ∨ ln' = .s1) (hfree : (s.desc d).state = .free)
      (hc : s.desc d = Desc.closed) : ClosedAt u d := by
    refine .of_free (by rw [hdesc]; exact hfree) (by rw [hdesc, hc]; rfl)
      (by rw [hdph]; exact h.not_serving_of_free hfree) ?_ ?_
    · unfold FreeIsClosed
      rw [hl, hdesc]
      rcases hln with rfl | rfl <;> exact fun _ => hc
    · rw [hl]
      rcases hln with rfl | rfl <;> simp
  cases ln with
  | s0 =>
    simp only [submitMicro]
    split
    · exact h.past (by cases d <;> rfl) rfl (.inl (State.submitting_of_not_inSubmit rfl d)) hclosed
    · next hfree =>
      split
      · exact restart (by cases d <;> rfl) rfl (at_sub s .s0b) (.inl rfl) hfree (hclosed hfree)
      · exact restart (by cases d <;> rfl) rfl (at_sub s .s1) (.inr rfl) hfree (hclosed hfree)
  | s0b =>
    simp only [submitMicro]
    split
    · exact h.past (by cases d <;> rfl) rfl (.inl (State.submitting_of_not_inSubmit rfl d)) hclosed
    · exact restart (by cases d <;> rfl) rfl (at_sub s .s1) (.inr rfl) hprog.1 (hclosed hprog.1)
  | s1 =>
    have hdesc : (submitMicro d buf len .s1 s).desc d = { s.desc d with cur := buf } := by cases d <;> rfl
    have hl : (submitMicro d buf len .s1 s).submitting d = some .s2 := at_sub _ _
    refine .of_free (by rw [hdesc]; exact hprog.1) (by rw [hdesc]; exact hprog.2)
      (by rw [submitMicro_dph]; exact h.not_serving_of_free hprog.1) ?_ (by rw [hl]; simp)
    unfold FreeIsClosed
    rw [hl, hdesc]
    exact fun _ => ⟨by rw [hclosed hprog.1]; rfl, hprog.2⟩
  | s2 =>
    have hdesc : (submitMicro d buf len .s2 s).desc d = { s.desc d with len := len } := by cases d <;> rfl
    have hl : (submitMicro d buf len .s2 s).submitting d = some .s3 := at_sub _ _
    refine .of_free (by rw [hdesc]; exact hprog.1) (by rw [hdesc]; exact hprog.2)
      (by rw [submitMicro_dph]; exact h.not_serving_of_free hprog.1) ?_ (by rw [hl]; simp)
    unfold FreeIsClosed
    rw [hl, hdesc]
    exact fun _ => hprog.2
  | s3 =>
    have hdesc : (submitMicro d buf len .s3 s).desc d = { s.desc d with state := .busy } := by cases d <;> rfl
    refine .of_busy (by rw [hdesc]) (by rw [submitMicro_dph]; exact h.not_serving_of_free hprog.1)
      (.inr ⟨by rw [hdesc]; exact hprog.2, .inl (at_sub _ _)⟩)
  | s4 =>
    obtain ⟨hbusy, hsel, hserv⟩ := hprog
    have hdesc : (submitMicro d buf len .s4 s).desc d = s.desc d := by cases d <;> rfl
    exact .of_busy (by rw [hdesc]; exact hbusy) (by rw [submitMicro_dph]; exact hserv)
      (.inr ⟨by rw [hdesc]; exact hsel, .inr ⟨s.cr1, at_sub _ _⟩⟩)
  | s5 c1 =>
    obtain ⟨hbusy, -, hserv⟩ := hprog
    exact .of_busy (by cases d <;> exact hbusy) (by rw [submitMicro_dph]; exact hserv) (.inl (at_sub _ _))
  | s6 => exact h.past (by cases d <;> rfl) rfl (.inr ⟨s.cr2, at_sub _ _⟩) hclosed
  | s7 c2 => exact h.past (by cases d <;> rfl) rfl (.inl (State.submitting_of_not_inSubmit rfl d)) hclosed

/-- A line of HOST keeps the invariant. -/
theorem ClosedAt.hostMicro {s t : State} {e : Dir} (h : ClosedAt s e) (hm : hostMicro s = .next t) : ClosedAt t e := by
  cases hin : s.hph.inSubmit with
  | false =>
    obtain ⟨hdesc, -, hout⟩ := hostMicro_of_not_inSubmit hin hm
    refine h.congr (hdesc e) ?_ (hostMicro_dph hm).1
    rw [State.submitting_of_not_inSubmit hout, State.submitting_of_not_inSubmit hin]
  | true =>
    cases hph : s.hph with
    | submit d buf len ln =>
      simp only [Machine.hostMicro, hph] at hm
      cases hm
      by_cases hed : e = d
      · subst hed; exact h.submitMicro_own hph
      · exact h.submitMicro_other hph hed
    | _ => simp [hph, HostPhase.inSubmit] at hin

/-! ### Every step -/

/-- A command started keeps what is said of a direction: it stands at its first line. -/
theorem ClosedAt.begun {s : State} {d : Dir} (h : ClosedAt s d) (i : Instr) (hidle : s.hph = .idle) :
    ClosedAt { s with hph := hostEntry i } d := by
  have hnone : s.submitting d = none := State.submitting_of_not_inSubmit (by rw [hidle]; rfl) d
  have hfree := h.closed
  unfold FreeIsClosed at hfree
  rw [hnone] at hfree
  have hdesc : ({ s with hph := hostEntry i } : State).desc d = s.desc d := by cases d <;> rfl
  refine ⟨by rw [hdesc]; exact h.bound, ?_, ?_, by unfold CloseProgress; rw [hdesc]; exact h.close⟩
  · unfold FreeIsClosed
    rw [hdesc]
    rcases submitting_hostEntry s i d with he | he <;> rw [he] <;> exact hfree
  · unfold SubmitProgress
    rcases submitting_hostEntry s i d with he | he <;> rw [he] <;> trivial

/-- The moves of the machine keep what is said of a direction (R34). -/
theorem closedAt_kept (d : Dir) : Kept (ClosedAt · d) where
  turn s _ _ _ h := h.congr (by cases d <;> rfl) rfl rfl
  begun s i h hb := h.begun i ((State.hostMayBegin_iff s).1 hb).1
  host s t h _ _ hm := h.hostMicro hm
  enter s h _ := h.away (by cases d <;> rfl) rfl rfl
  disp s h _ := h.dispMicro
  perip s a h := by
    obtain ⟨x, y, he⟩ := periphStep_frame a s
    rw [he]
    exact h.congr (by cases d <;> rfl) rfl rfl

/-- Settles O54: the invariant is one per direction, and every line keeps each. -/
theorem stepKeepsClosedInv : Obligations.StepKeepsClosedInv := by
  intro s t hs h
  rw [closedInv_iff] at hs ⊢
  exact fun d => (closedAt_kept d).step (hs d) h

end Sys2Proof.Machine
end

section
/-! PROOFS. The arming invariant (R251) with ATOMIC_HOST true, the launch state, and the hazard of R258 where it is
false. -/

namespace Sys2Proof.Machine

open Sys2Proof

/-! ### What the parts of the invariant read -/

section
variable {s t : State} {d : Dir}

theorem State.enabled_congr (h : t.cr2 = s.cr2) (d : Dir) : t.enabled d = s.enabled d := by
  unfold State.enabled
  rw [h]

/-- A direction no sooner armed than before, BUSY and bound where it was, is armed only while bound. -/
theorem ArmedIsBound.mono (h : ArmedIsBound s d) (hen : t.enabled d = true → s.enabled d = true)
    (hstate : (s.desc d).state = .busy → (t.desc d).state = .busy)
    (hsel : (s.desc d).sel.bound = true → (t.desc d).sel.bound = true) : ArmedIsBound t d := fun he =>
  have ⟨hb, hs⟩ := h (hen he)
  ⟨hstate hb, hsel hs⟩

theorem ArmedIsBound.congr (h : ArmedIsBound s d) (hcr2 : t.cr2 = s.cr2) (hdesc : t.desc d = s.desc d) :
    ArmedIsBound t d :=
  h.mono (by rw [State.enabled_congr hcr2]; exact id) (by rw [hdesc]; exact id) (by rw [hdesc]; exact id)

theorem HostCopyLive.of_not_inSubmit (h : s.hph.inSubmit = false) : HostCopyLive s := by
  unfold HostCopyLive
  cases hph : s.hph with
  | submit d buf len ln => rw [hph] at h; cases h
  | _ => trivial

theorem DispCopyLive.of_idle (h : s.dph = .idle) : DispCopyLive s := by
  unfold DispCopyLive
  rw [h]
  trivial

end

/-- Setting a bit of CR2 arms the direction of that bit only (R132). -/
theorem enabled_of_setBit {s t : State} {d e : Dir} (h : t.cr2 = setBit s.cr2 (enableBit d)) (he : t.enabled e = true) :
    e = d ∨ s.enabled e = true := by
  unfold State.enabled at he
  rw [h, getLsbD_setBit _ _ _ (enableBit_lt e), Bool.or_eq_true, decide_eq_true_eq] at he
  refine he.imp_left fun hk => ?_
  by_contra hne
  exact enableBit_ne hne hk

/-- Clearing a bit of CR2 disarms the direction of that bit and arms none (R133). -/
theorem enabled_of_clrBit {s t : State} {d e : Dir} (h : t.cr2 = clrBit s.cr2 (enableBit d)) (he : t.enabled e = true) :
    e ≠ d ∧ s.enabled e = true := by
  unfold State.enabled at he
  rw [h, getLsbD_clrBit _ _ _ (enableBit_lt e), Bool.and_eq_true, Bool.not_eq_true', decide_eq_false_iff_not] at he
  exact ⟨fun hed => he.1 (by rw [hed]), he.2⟩

/-! ### The lines of HOST -/

theorem hostMicro_par {s t : State} (h : hostMicro s = .next t) : t.par = s.par := by
  obtain ⟨u, hu, p, f, r, rfl⟩ := hostMicro_move h
  rcases hu.data_or_same with hd | ⟨hpar, -⟩
  · exact hd.par
  · exact hpar

/-- A line of a submit before S7 leaves CR2 and unbinds no step (R150, R151). -/
theorem submitMicro_before_s7 {d : Dir} {buf : Addr} {len : Len} {ln : SubmitLine} (s : State)
    (hln : ∀ c2, ln ≠ .s7 c2) : (submitMicro d buf len ln s).cr2 = s.cr2 ∧
      ∀ e, (s.desc e).sel.bound = true → ((submitMicro d buf len ln s).desc e).sel.bound = true := by
  cases ln with
  | s0 =>
    simp only [submitMicro]
    split
    · exact ⟨rfl, fun e => by cases e <;> exact id⟩
    · split <;> exact ⟨rfl, fun e => by cases e <;> exact id⟩
  | s0b => simp only [submitMicro]; split <;> exact ⟨rfl, fun e => by cases e <;> exact id⟩
  | s5 c1 =>
    have hbound : (Sel.ofWidth (dffWidth c1)).bound = true := by cases dffWidth c1 <;> rfl
    refine ⟨by cases d <;> rfl, fun e h => ?_⟩
    cases d <;> cases e
    · exact hbound
    · exact h
    · exact h
    · exact hbound
  | s7 c2 => exact absurd rfl (hln c2)
  | s1 => exact ⟨by cases d <;> rfl, fun e => by cases d <;> cases e <;> exact id⟩
  | s2 => exact ⟨by cases d <;> rfl, fun e => by cases d <;> cases e <;> exact id⟩
  | s3 => exact ⟨by cases d <;> rfl, fun e => by cases d <;> cases e <;> exact id⟩
  | s4 => exact ⟨rfl, fun e => by cases e <;> exact id⟩
  | s6 => exact ⟨rfl, fun e => by cases e <;> exact id⟩

/-- A submit past S3 has made its direction BUSY, past S5 it has bound the step, and at S7 it holds the live CR2. -/
theorem HostCopyLive.submitMicro {s : State} {d : Dir} {buf : Addr} {len : Len} {ln : SubmitLine}
    (h : HostCopyLive s) (hph : s.hph = .submit d buf len ln) : HostCopyLive (submitMicro d buf len ln s) := by
  unfold HostCopyLive at h
  rw [hph] at h
  cases ln with
  | s0 =>
    simp only [Machine.submitMicro]
    split
    · exact .of_not_inSubmit rfl
    · split <;> trivial
  | s0b =>
    simp only [Machine.submitMicro]
    split
    · exact .of_not_inSubmit rfl
    · trivial
  | s1 => trivial
  | s2 => trivial
  | s3 => show (((s.setDesc d _).atSubmit d buf len .s4).desc d).state = .busy; cases d <;> rfl
  | s4 => show ((s.atSubmit d buf len _).desc d).state = .busy; cases d <;> exact h
  | s5 c1 =>
    have hbound : (Sel.ofWidth (dffWidth c1)).bound = true := by cases dffWidth c1 <;> rfl
    show (((s.setDesc d _).atSubmit d buf len .s6).desc d).state = .busy ∧
      (((s.setDesc d _).atSubmit d buf len .s6).desc d).sel.bound = true
    cases d <;> exact ⟨h, hbound⟩
  | s6 =>
    show ((s.atSubmit d buf len _).desc d).state = .busy ∧ ((s.atSubmit d buf len _).desc d).sel.bound = true ∧ s.cr2 = s.cr2
    cases d <;> exact ⟨h.1, h.2, rfl⟩
  | s7 c2 => exact .of_not_inSubmit rfl

/-- A line of a submit arms no direction but its own, at S7, BUSY and bound by then. -/
theorem armedIsBound_submitMicro {s : State} {d e : Dir} {buf : Addr} {len : Len} {ln : SubmitLine}
    (harm : ∀ d, ArmedIsBound s d) (h : HostCopyLive s) (hph : s.hph = .submit d buf len ln) :
    ArmedIsBound (submitMicro d buf len ln s) e := by
  by_cases hs7 : ∃ c2, ln = .s7 c2
  · obtain ⟨c2, rfl⟩ := hs7
    unfold HostCopyLive at h
    rw [hph] at h
    obtain ⟨hbusy, hbound, rfl⟩ := h
    have hdesc (e : Dir) : (submitMicro d buf len (.s7 s.cr2) s).desc e = s.desc e := by cases e <;> rfl
    intro he
    rw [hdesc]
    rcases enabled_of_setBit (s := s) (d := d) rfl he with rfl | hen
    · exact ⟨hbusy, hbound⟩
    · exact harm e hen
  · obtain ⟨hcr2, hsel⟩ := submitMicro_before_s7 (d := d) (buf := buf) (len := len) s (fun c2 hc => hs7 ⟨c2, hc⟩)
    refine (harm e).mono (by rw [State.enabled_congr hcr2]; exact id) (fun hb => ?_) (hsel e)
    obtain ⟨u, hu, p, f, r, he⟩ := submitMicro_move d buf len ln s
    rw [he, State.desc_hostSet]
    exact hu.busy hb

/-- A line of HOST, no dispatch in progress, keeps the arming invariant. -/
theorem ArmInv.hostMicro {s t : State} (h : ArmInv s) (hidle : s.dph = .idle) (hm : hostMicro s = .next t) :
    ArmInv t := by
  obtain ⟨hdph, hdfault⟩ := hostMicro_dph hm
  have hidle' : t.dph = .idle := hdph.trans hidle
  have harm : (∀ e, ArmedIsBound t e) ∧ HostCopyLive t := by
    cases hin : s.hph.inSubmit with
    | false =>
      obtain ⟨hdesc, hcr2, hout⟩ := hostMicro_of_not_inSubmit hin hm
      exact ⟨fun e => (h.arm e).congr hcr2 (hdesc e), .of_not_inSubmit hout⟩
    | true =>
      cases hph : s.hph with
      | submit d buf len ln =>
        simp only [Machine.hostMicro, hph] at hm
        cases hm
        exact ⟨fun e => armedIsBound_submitMicro h.arm h.host hph, h.host.submitMicro hph⟩
      | _ => simp [hph, HostPhase.inSubmit] at hin
  exact ⟨by rw [hostMicro_par hm]; exact h.atomic, .inr hidle', harm.1, harm.2, .of_idle hidle',
    by rw [hdfault]; exact h.noNull⟩

/-! ### The lines of DISP -/

theorem dispMicro_par (s : State) : (dispMicro s).par = s.par := by
  obtain ⟨u, hu, p, f, h⟩ := dispMicro_move s
  rw [h]
  rcases hu.data_or_same with hd | ⟨hpar, -⟩
  · exact hd.par
  · exact hpar

/-- The fault of a step's access is no call through a null or reserved reference (R222). -/
theorem notNullCall_stepAccessFault {s : State} {d : Dir} {w : FrameWidth} {a : Addr} {f : Fault}
    (h : s.stepAccessFault d w a = some f) : notNullCall (some f) := by
  unfold State.stepAccessFault at h
  split at h
  · cases h; trivial
  · split at h
    · obtain ⟨b, -, rfl⟩ := Option.map_eq_some_iff.1 h
      trivial
    · cases h

/-- A fault raised stands only where none stood before (R222). -/
theorem notNullCall_raiseDisp {s : State} {f : Fault} (h : notNullCall s.dfault) (hf : notNullCall (some f)) :
    notNullCall (s.raiseDisp f).dfault := by
  rw [State.raiseDisp_dfault]
  cases hs : s.dfault with
  | none => exact hf
  | some g => rw [hs] at h; exact h

/-- A line of a step leaves CR2 and calls through no null or reserved reference. -/
theorem stepTxMicro_cr2_noNull (w : FrameWidth) (ln : TxLine) {s : State} (h : notNullCall s.dfault) :
    (stepTxMicro w ln s).cr2 = s.cr2 ∧ notNullCall (stepTxMicro w ln s).dfault := by
  cases ln with
  | t0 =>
    simp only [stepTxMicro]
    split
    · next hf => exact ⟨State.raiseDisp_cr2 s _, notNullCall_raiseDisp h (notNullCall_stepAccessFault hf)⟩
    · split <;> exact ⟨rfl, h⟩
  | t4 => simp only [stepTxMicro, tailMicro]; split <;> exact ⟨rfl, h⟩
  | _ => exact ⟨rfl, h⟩

theorem stepRxMicro_cr2_noNull (w : FrameWidth) (ln : RxLine) {s : State} (h : notNullCall s.dfault) :
    (stepRxMicro w ln s).cr2 = s.cr2 ∧ notNullCall (stepRxMicro w ln s).dfault := by
  cases ln with
  | t1 v =>
    simp only [stepRxMicro]
    split
    · next hf => exact ⟨State.raiseDisp_cr2 s _, notNullCall_raiseDisp h (notNullCall_stepAccessFault hf)⟩
    · split
      · exact ⟨rfl, h⟩
      · exact ⟨State.writeUnit_cr2 s _ _ _, by simpa using h⟩
  | t4 => simp only [stepRxMicro, tailMicro]; split <;> exact ⟨rfl, h⟩
  | _ => exact ⟨rfl, h⟩

/-- What a line of DISP keeps of the arming invariant. -/
def DispKeepsArm (t : State) : Prop := (∀ d, ArmedIsBound t d) ∧ DispCopyLive t ∧ notNullCall t.dfault

/-- A gate on the live CR2 calls through no null or reserved reference: the armed direction is bound (R251). -/
theorem ArmInv.gateMicro {s : State} (h : ArmInv s) (d : Dir) {e : Half} (v : Half) (he : e = s.cr2) :
    DispKeepsArm (gateMicro d e v s) := by
  have move (p : DispPhase) (hp : p = afterStep d ∨ ∃ w, p = stepEntry d w) : DispKeepsArm { s with dph := p } := by
    refine ⟨fun c => (h.arm c).congr rfl (by cases c <;> rfl), ?_, h.noNull⟩
    rcases hp with rfl | ⟨w, rfl⟩ <;> cases d <;> trivial
  cases hgate : gateOpen d e v with
  | false => rw [gateMicro_closed s hgate]; exact move _ (.inl rfl)
  | true =>
    have hen : s.enabled d = true := by
      rw [he] at hgate
      exact ((gateOpen_iff d _ v).1 hgate).1
    have hbound := (h.arm d hen).2
    cases hsel : (s.desc d).sel with
    | w8 => rw [gateMicro_bound (w := .w8) hgate hsel]; exact move _ (.inr ⟨_, rfl⟩)
    | w16 => rw [gateMicro_bound (w := .w16) hgate hsel]; exact move _ (.inr ⟨_, rfl⟩)
    | none => rw [hsel] at hbound; cases hbound
    | reserved => rw [hsel] at hbound; cases hbound

/-- A line of a close leaves the descriptor of the other direction (R31). -/
theorem closeMicro_desc_ne (s : State) {d e : Dir} (ln : CloseLine) (he : e ≠ d) :
    (Machine.closeMicro d ln s).desc e = s.desc e := by
  cases d with
  | tx =>
    cases e with
    | tx => exact absurd rfl he
    | rx => cases ln <;> rfl
  | rx =>
    cases e with
    | tx => cases ln <;> rfl
    | rx => exact absurd rfl he

/-- A line of a close disarms its direction at K1 and clears its descriptor after (R165, R166). -/
theorem ArmInv.closeMicro {s : State} (h : ArmInv s) {d : Dir} {ln : CloseLine} (hdph : s.dph = .close d ln) :
    DispKeepsArm (closeMicro d ln s) := by
  have hcopy := h.disp
  unfold DispCopyLive at hcopy
  rw [hdph] at hcopy
  have disarmed {t : State} (hoff : s.enabled d = false) (hcr2 : t.cr2 = s.cr2)
      (hdesc : ∀ e, e ≠ d → t.desc e = s.desc e) (e : Dir) : ArmedIsBound t e := by
    intro he
    rw [State.enabled_congr hcr2] at he
    have hed : e ≠ d := by
      rintro rfl
      rw [hoff] at he
      cases he
    rw [hdesc e hed]
    exact h.arm e he
  cases ln with
  | k0 => exact ⟨fun e => (h.arm e).congr rfl (by cases e <;> rfl), rfl, h.noNull⟩
  | k1 c2 =>
    obtain rfl : c2 = s.cr2 := hcopy
    have hcr2 : (Machine.closeMicro d (.k1 s.cr2) s).cr2 = clrBit s.cr2 (enableBit d) := rfl
    refine ⟨fun e => ?_, ?_, h.noNull⟩
    · exact (h.arm e).mono (fun he => (enabled_of_clrBit hcr2 he).2) (by cases e <;> exact id)
        (by cases e <;> exact id)
    · show (Machine.closeMicro d (.k1 s.cr2) s).enabled d = false
      by_contra hon
      exact (enabled_of_clrBit hcr2 (by simpa using hon)).1 rfl
  | k2 =>
    exact ⟨disarmed hcopy (by cases d <;> rfl) (fun _ => closeMicro_desc_ne s _), by cases d <;> exact hcopy,
      by cases d <;> exact h.noNull⟩
  | k3 =>
    exact ⟨disarmed hcopy (by cases d <;> rfl) (fun _ => closeMicro_desc_ne s _), by cases d <;> exact hcopy,
      by cases d <;> exact h.noNull⟩
  | k4 =>
    exact ⟨disarmed hcopy (by cases d <;> rfl) (fun _ => closeMicro_desc_ne s _), by cases d <;> exact hcopy,
      by cases d <;> exact h.noNull⟩
  | k5 =>
    exact ⟨disarmed hcopy (by cases d <;> rfl) (fun _ => closeMicro_desc_ne s _), by cases d <;> trivial,
      by cases d <;> exact h.noNull⟩

/-- A line that leaves CR2 and both directions' state and step reference keeps them bound where armed. -/
theorem ArmInv.armed_of_same {s t : State} (h : ArmInv s) (hcr2 : t.cr2 = s.cr2)
    (hdesc : ∀ e, (t.desc e).state = (s.desc e).state ∧ (t.desc e).sel = (s.desc e).sel) (e : Dir) :
    ArmedIsBound t e := by
  obtain ⟨hstate, hsel⟩ := hdesc e
  exact (h.arm e).mono (by rw [State.enabled_congr hcr2]; exact id) (by rw [hstate]; exact id) (by rw [hsel]; exact id)

/-- A line of DISP leaves the state and the step reference of the direction it does not serve (R31). -/
theorem dispMicro_other_state_sel {s : State} {d e : Dir} (hserv : serving d s.dph = true) (he : e ≠ d) :
    ((dispMicro s).desc e).state = (s.desc e).state ∧ ((dispMicro s).desc e).sel = (s.desc e).sel := by
  obtain ⟨u, hu, p, f, h⟩ := dispMicro_move s
  rw [h, State.desc_dispSet, (hu.other hserv he).1]
  exact ⟨rfl, rfl⟩

/-- A line of DISP keeps its part of the arming invariant. -/
theorem ArmInv.dispMicro_keeps {s : State} (h : ArmInv s) : DispKeepsArm (dispMicro s) := by
  have hcopy := h.disp
  unfold DispCopyLive at hcopy
  have move (p : DispPhase) (hp : DispCopyLive { s with dph := p }) : DispKeepsArm { s with dph := p } :=
    ⟨fun c => (h.arm c).congr rfl (by cases c <;> rfl), hp, h.noNull⟩
  cases hdph : s.dph with
  | idle => rw [dispMicro, hdph]; exact ⟨h.arm, h.disp, h.noNull⟩
  | i0 => rw [dispMicro, hdph]; exact move _ rfl
  | i3 => rw [dispMicro, hdph]; exact move _ rfl
  | i1 e => rw [dispMicro, hdph]; rw [hdph] at hcopy; exact move _ hcopy
  | i4 e => rw [dispMicro, hdph]; rw [hdph] at hcopy; exact move _ hcopy
  | i2 e v => rw [dispMicro, hdph]; rw [hdph] at hcopy; exact h.gateMicro .tx v hcopy
  | i5 e v => rw [dispMicro, hdph]; rw [hdph] at hcopy; exact h.gateMicro .rx v hcopy
  | close d ln => rw [dispMicro, hdph]; exact h.closeMicro hdph
  | stepTx w ln =>
    have hline : dispMicro s = stepTxMicro w ln s := by rw [dispMicro, hdph]
    have hother := dispMicro_other_state_sel (s := s) (d := .tx) (e := .rx) (by rw [hdph]; rfl) (by decide)
    rw [hline] at hother ⊢
    obtain ⟨hcr2, hnull⟩ := stepTxMicro_cr2_noNull w ln h.noNull
    refine ⟨h.armed_of_same hcr2 (fun e => ?_), ?_, hnull⟩
    · cases e
      · exact stepTxMicro_state_sel w ln s
      · exact hother
    · unfold DispCopyLive
      rcases stepTxMicro_dph hdph with ⟨ln', h⟩ | h | h <;> rw [h] <;> trivial
  | stepRx w ln =>
    have hline : dispMicro s = stepRxMicro w ln s := by rw [dispMicro, hdph]
    have hother := dispMicro_other_state_sel (s := s) (d := .rx) (e := .tx) (by rw [hdph]; rfl) (by decide)
    rw [hline] at hother ⊢
    obtain ⟨hcr2, hnull⟩ := stepRxMicro_cr2_noNull w ln h.noNull
    refine ⟨h.armed_of_same hcr2 (fun e => ?_), ?_, hnull⟩
    · cases e
      · exact hother
      · exact stepRxMicro_state_sel w ln s
    · unfold DispCopyLive
      rcases stepRxMicro_dph hdph with ⟨ln', h⟩ | h | h <;> rw [h] <;> trivial

/-- A line of DISP keeps the arming invariant: HOST is idle meanwhile (R80). -/
theorem ArmInv.dispMicro {s : State} (h : ArmInv s) : ArmInv (dispMicro s) := by
  by_cases hidle : s.dph = .idle
  · rw [Machine.dispMicro, hidle]
    exact h
  · have hhost : (Machine.dispMicro s).hph = .idle := (dispMicro_hph s).trans (h.alone.resolve_right hidle)
    obtain ⟨harm, hdisp, hnull⟩ := h.dispMicro_keeps
    exact ⟨by rw [dispMicro_par]; exact h.atomic, .inl hhost, harm, .of_not_inSubmit (by rw [hhost]; rfl), hdisp, hnull⟩

/-! ### Every step -/

/-- The arming invariant reads neither SR, DR, the script nor the schedule. -/
theorem ArmInv.congr {s t : State} (h : ArmInv s) (hpar : t.par = s.par) (hdesc : ∀ d, t.desc d = s.desc d)
    (hcr2 : t.cr2 = s.cr2) (hhph : t.hph = s.hph) (hdph : t.dph = s.dph) (hdfault : t.dfault = s.dfault) :
    ArmInv t where
  atomic := by rw [hpar]; exact h.atomic
  alone := by rw [hhph, hdph]; exact h.alone
  arm d := (h.arm d).congr hcr2 (hdesc d)
  host := by
    have hh := h.host
    unfold HostCopyLive at hh ⊢
    simp only [hhph, hdesc, hcr2]
    exact hh
  disp := by
    have hd := h.disp
    unfold DispCopyLive at hd ⊢
    simp only [hdph, hcr2, State.enabled_congr hcr2]
    exact hd
  noNull := by rw [hdfault]; exact h.noNull

/-- The first line of a command is no line at which a submit has populated anything. -/
theorem HostCopyLive.hostEntry (s : State) (i : Instr) : HostCopyLive { s with hph := hostEntry i } := by
  cases i <;> trivial

/-- The moves of the machine keep the arming invariant (R251). -/
theorem armInv_kept : Kept ArmInv where
  turn s _ _ _ h := h.congr rfl (fun d => by cases d <;> rfl) rfl rfl rfl rfl
  begun s i h hb := by
    obtain ⟨-, hdph, -⟩ := s.hostMayBegin_iff.1 hb
    exact ⟨h.atomic, .inr hdph, fun d => (h.arm d).congr rfl (by cases d <;> rfl), .hostEntry s i, .of_idle hdph, h.noNull⟩
  host s t h hidle _ hm := h.hostMicro hidle hm
  enter s h hb := by
    obtain ⟨-, -, hatomic⟩ := s.dispMayStart_iff.1 hb
    have hhph : s.hph = .idle := hatomic h.atomic
    refine ⟨h.atomic, .inl hhph, fun d => (h.arm d).congr rfl (by cases d <;> rfl), ?_, trivial, h.noNull⟩
    exact .of_not_inSubmit (by rw [State.enterDispatch_hph, hhph]; rfl)
  disp s h _ := h.dispMicro
  perip s a h := by
    obtain ⟨x, y, he⟩ := periphStep_frame a s
    rw [he]
    exact h.congr rfl (fun d => by cases d <;> rfl) rfl rfl rfl rfl

/-- Settles O56: HOST at S7 holds the live CR2 since no dispatch runs inside a command, and a close has disarmed before
it frees. -/
theorem stepKeepsArmInv : Obligations.StepKeepsArmInv := fun _ _ hs h => armInv_kept.step hs h

/-! ### The launch state -/

/-- The launch state is closed in both directions, with neither agent in flight (R34, R45). -/
theorem closedInv_reset : ClosedInv State.reset := by
  refine (closedInv_iff _).2 fun d => ⟨?_, ?_, ?_, .of_not_serving rfl⟩
  · cases d <;> decide
  · cases d <;> exact fun _ => rfl
  · cases d <;> trivial

/-- A launch state with ATOMIC_HOST true and both enable bits 0 meets the arming invariant (R251). -/
theorem armInv_reset {c2 : Half} (htx : c2.getLsbD 7 = false) (hrx : c2.getLsbD 6 = false) :
    ArmInv { State.reset with par := { Params.atReset with atomicHost := true }, cr2 := c2 } := by
  refine ⟨rfl, .inl rfl, fun d he => ?_, trivial, trivial, trivial⟩
  have hoff : c2.getLsbD (enableBit d) = false := by
    cases d
    · exact htx
    · exact hrx
  cases hoff.symm.trans he

/-- Settles O55: the memory is empty, both descriptors are closed, and no enable bit is set. -/
theorem resetMeetsInvariants : Obligations.ResetMeetsInvariants :=
  ⟨rfl, closedInv_reset, armInv_reset (c2 := 0) rfl rfl, fun _ htx hrx => armInv_reset htx hrx⟩

/-- Settles O58: the launch state, read field by field. -/
theorem resetValues : Obligations.ResetValues := by
  unfold Obligations.ResetValues
  decide

end Sys2Proof.Machine
end

section
/-! PROOFS. The host commands run whole: the submits (R150 to R155), `GET_STATE` (R142), the blocking commands (R190 to
R195), and a command that HOST may not begin. -/

namespace Sys2Proof.Machine

open Sys2Proof

/-! ### Submits -/

/-- What an accepted submit leaves (R150, R151). -/
def State.submitted (s : State) (d : Dir) (buf : Addr) (len : Len) : State :=
  (((s.lend d buf len).bindWidth d).rmwSet .cr2 (enableBit d)).respond respAccepted

/-- From S1 on a submit runs to its end, alone (R150, R151). -/
theorem runHost_from_s1 (k : Nat) {d : Dir} {buf : Addr} {len : Len} {s : State} (hf : s.hfault = none) :
    runHost (k + 7) (s.atSubmit d buf len .s1) = .next (s.submitted d buf len) :=
  (runHost_lend (k + 4) hf).trans (runHost_bindWidth_rmwSet k (by simpa))

/-- S0 on a FREE direction goes on to the line STRICT_LENGTH inserts (R155). -/
theorem submitMicro_s0_strict {d : Dir} {s : State} (buf : Addr) (len : Len) (h : (s.desc d).state = .free)
    (hstrict : s.par.strictLength = true) : submitMicro d buf len .s0 s = s.atSubmit d buf len .s0b := by
  simp [submitMicro, h, hstrict]

/-- A submit of a FREE direction, alone, whose length STRICT_LENGTH does not reject (R150, R151, R155). -/
theorem beginHost_submit_accepted {d : Dir} {buf : Addr} {len : Len} {s : State} (hb : s.hostMayBegin = true)
    (hlen : ¬ (s.par.strictLength = true ∧ s.cr1.getLsbD 11 = true ∧ len.getLsbD 0 = true))
    (hfree : (s.desc d).state = .free) :
    beginHost (.submit d buf len .s0) s = .next (s.submitted d buf len) := by
  cases hstrict : s.par.strictLength with
  | false => exact beginHost_submit_free hb hstrict hfree
  | true =>
    obtain ⟨-, -, hfault⟩ := s.hostMayBegin_iff.1 hb
    have hs0b : submitMicro d buf len .s0b (s.atSubmit d buf len .s0b) = s.atSubmit d buf len .s1 := by
      exact if_neg fun h => hlen ⟨hstrict, Bool.and_eq_true_iff.1 h⟩
    calc beginHost (.submit d buf len .s0) s
      _ = runHost hostFuel (s.atSubmit d buf len .s0) := beginHost_submit hb
      _ = runHost (hostFuel - 1) (s.atSubmit d buf len .s0b) :=
          runHost_atSubmit _ hfault (submitMicro_s0_strict buf len hfree hstrict)
      _ = runHost (hostFuel - 2) (s.atSubmit d buf len .s1) := runHost_atSubmit _ hfault hs0b
      _ = .next (s.submitted d buf len) := runHost_from_s1 7 hfault

/-- A submit of a FREE direction, alone, whose length STRICT_LENGTH rejects, answers so and writes nothing (R155). -/
theorem beginHost_submit_invalid {d : Dir} {buf : Addr} {len : Len} {s : State} (hb : s.hostMayBegin = true)
    (hstrict : s.par.strictLength = true) (hdff : s.cr1.getLsbD 11 = true) (hodd : len.getLsbD 0 = true)
    (hfree : (s.desc d).state = .free) :
    beginHost (.submit d buf len .s0) s = .next { s with resp := some respInvalidLength } := by
  obtain ⟨hidle, -, hfault⟩ := s.hostMayBegin_iff.1 hb
  have hs0b : submitMicro d buf len .s0b (s.atSubmit d buf len .s0b) =
      (s.atSubmit d buf len .s0b).respond respInvalidLength :=
    if_pos (Bool.and_eq_true_iff.2 ⟨hdff, hodd⟩)
  calc beginHost (.submit d buf len .s0) s
    _ = runHost hostFuel (s.atSubmit d buf len .s0) := beginHost_submit hb
    _ = runHost (hostFuel - 1) (s.atSubmit d buf len .s0b) :=
        runHost_atSubmit _ hfault (submitMicro_s0_strict buf len hfree hstrict)
    _ = runHost (hostFuel - 2) ((s.atSubmit d buf len .s0b).respond respInvalidLength) :=
        runHost_atSubmit _ hfault hs0b
    _ = .next ((s.atSubmit d buf len .s0b).respond respInvalidLength) := runHost_idle _ rfl
    _ = .next { s with resp := some respInvalidLength } := congrArg _ (State.respond_from_idle hidle _ _)

/-- The step reference of a width, as the statements write it (R150 line S5). -/
theorem ofWidth_dffWidth (c1 : Half) : Sel.ofWidth (dffWidth c1) = if c1.getLsbD 11 then .w16 else .w8 := by
  unfold dffWidth
  cases c1.getLsbD Config.bitDff <;> rfl

theorem State.submitted_tx {s : State} (buf : Addr) (len : Len) (hidle : s.hph = .idle) :
    s.submitted .tx buf len = { s with
      tx := ⟨len, buf, .busy, if s.cr1.getLsbD 11 then .w16 else .w8⟩, cr2 := s.cr2 ||| 0x0080, resp := some 0,
      txSpan := some ⟨buf, len⟩ } := by
  rw [← ofWidth_dffWidth, hidle]
  rfl

theorem State.submitted_rx {s : State} (buf : Addr) (len : Len) (hidle : s.hph = .idle) :
    s.submitted .rx buf len = { s with
      rx := ⟨len, buf, .busy, if s.cr1.getLsbD 11 then .w16 else .w8⟩, cr2 := s.cr2 ||| 0x0040, resp := some 0,
      rxSpan := some ⟨buf, len⟩ } := by
  rw [← ofWidth_dffWidth, hidle]
  rfl

/-- Settles O18: S0 or S0b lets the submit through to S1, and from there its lines run to the end. -/
theorem submitAccepted : Obligations.SubmitAccepted := by
  intro buf len s hb hlen
  have hidle := (s.hostMayBegin_iff.1 hb).1
  refine ⟨fun hfree => ?_, fun hfree => ?_⟩
  · rw [← State.submitted_tx buf len hidle]
    exact beginHost_submit_accepted (d := .tx) hb hlen hfree
  · rw [← State.submitted_rx buf len hidle]
    exact beginHost_submit_accepted (d := .rx) hb hlen hfree

/-- A submit with STRICT_LENGTH false answers ACCEPTED or BUSY (R155). -/
theorem beginHost_submit_resp {d : Dir} {buf : Addr} {len : Len} {s t : State} (hb : s.hostMayBegin = true)
    (hstrict : s.par.strictLength = false) (h : beginHost (.submit d buf len .s0) s = .next t) :
    t.resp = some respAccepted ∨ t.resp = some respBusy := by
  cases hstate : (s.desc d).state with
  | free =>
    rw [beginHost_submit_free hb hstrict hstate] at h
    cases h
    exact .inl rfl
  | busy =>
    rw [beginHost_submit_busy hb hstate] at h
    cases h
    exact .inr rfl

/-- Settles O20: S0b rejects an odd length at 16-bit frames before anything is written; without it S0 and S7 give the
only two answers. -/
theorem strictLengthRejectsOdd : Obligations.StrictLengthRejectsOdd := by
  refine ⟨?rejected, ?never⟩
  case rejected =>
    intro buf len s hb hstrict hdff hodd
    exact ⟨beginHost_submit_invalid (d := .tx) hb hstrict hdff hodd,
      beginHost_submit_invalid (d := .rx) hb hstrict hdff hodd⟩
  case never =>
    rintro buf len s t hb hstrict (h | h)
    · exact beginHost_submit_resp (d := .tx) hb hstrict h
    · exact beginHost_submit_resp (d := .rx) hb hstrict h

/-! ### GET_STATE, and a command HOST may not begin -/

/-- `GET_STATE` of a direction, alone, answers its bus state and changes nothing else (R142). -/
theorem exec_getState {d : Dir} {s : State} (hb : s.hostMayBegin = true) :
    exec (.getState d) s = .next { s with resp := some (respBusState (s.desc d).state) } :=
  beginHost_read_respond (second := .getState d (.g1 (s.desc d).state)) hb (by simp) (by simp)
    (by cases d <;> rfl) rfl

/-- The code of a bus state, as the statements write it (R105). -/
theorem respBusState_eq_ite (x : BusState) : respBusState x = if x = .free then 0 else 1 := by
  cases x <;> rfl

/-- Settles O22: G0 reads the bus state and G1 answers it. -/
theorem getStateAnswers : Obligations.GetStateAnswers := by
  intro s hb
  rw [← respBusState_eq_ite, ← respBusState_eq_ite]
  exact ⟨exec_getState (d := .tx) hb, exec_getState (d := .rx) hb⟩

/-- A command HOST may not begin changes nothing (log 2). -/
theorem beginHost_held (ph : HostPhase) {s : State} (hb : s.hostMayBegin = false) : beginHost ph s = .next s := by
  rw [beginHost, hb]
  rfl

/-- Settles O29: each command is begun only where HOST may begin one. -/
theorem commandsWaitForHost : Obligations.CommandsWaitForHost := by
  intro s hb
  refine ⟨fun c => beginHost_held _ hb, fun buf len => beginHost_held _ hb, fun buf len => beginHost_held _ hb,
    fun m hm => ?_, fun d => beginHost_held _ hb, fun buf len => beginHost_held _ hb, fun buf len => beginHost_held _ hb⟩
  exact (if_pos hm).trans (beginHost_held _ hb)

/-! ### One line of a blocking command -/

/-- The flag a blocking command of a direction waits for at B2 (R190, R191). -/
theorem blkMicro_b2_waits {d : Dir} {s : State} (buf : Addr) (len : Len) (p : Addr) (n : Len)
    (h : s.flagged d = false) : blkMicro d buf len (.b2 p n) s = s.atBlk d buf len (.b2 p n) := by
  cases d <;> exact if_neg (Bool.not_eq_true _ ▸ h)

theorem blkMicro_b2_passes {d : Dir} {s : State} (buf : Addr) (len : Len) (p : Addr) (n : Len)
    (h : s.flagged d = true) : blkMicro d buf len (.b2 p n) s = s.atBlk d buf len (.b3 p n) := by
  cases d <;> exact if_pos h

/-- B7 of `BLK_TX` waits while BSY is 1 (R190). -/
theorem blkTxMicro_b7_waits {s : State} (buf : Addr) (len : Len) (h : s.bsy = true) :
    blkMicro .tx buf len .b7 s = s.atBlk .tx buf len .b7 :=
  if_pos h

theorem blkTxMicro_b7_passes {s : State} (buf : Addr) (len : Len) (h : s.bsy = false) :
    blkMicro .tx buf len .b7 s = s.atBlk .tx buf len .b8 :=
  if_neg (Bool.not_eq_true _ ▸ h)

/-- B1 ends the loop at a count of zero, else goes on to B2 (R190, R191). -/
theorem blkMicro_b1_done (d : Dir) (buf : Addr) (len : Len) (p : Addr) (s : State) :
    blkMicro d buf len (.b1 p 0) s = s.atBlk d buf len .b7 := by
  cases d <;> rfl

theorem blkMicro_b1_more (d : Dir) (buf : Addr) (len : Len) (p : Addr) {n : Len} (hn : n ≠ 0) (s : State) :
    blkMicro d buf len (.b1 p n) s = s.atBlk d buf len (.b2 p n) := by
  cases d <;> exact if_neg hn

/-- Settles O28: a spin line whose flag is not there goes back to itself, where HOST stands already. -/
theorem blkSpinsWithoutTheFlag : Obligations.BlkSpinsWithoutTheFlag := by
  have spin {s : State} {d : Dir} {buf : Addr} {len : Len} {ln : BlkLine} (hph : s.hph = .blk d buf len ln)
      (h : blkMicro d buf len ln s = s.atBlk d buf len ln) : hostMicro s = .next s := by
    have hstay : s.atBlk d buf len ln = s := by rw [State.atBlk, ← hph]
    rw [hostMicro, hph]
    exact congrArg _ (h.trans hstay)
  intro s buf len n p
  exact ⟨fun hph h => spin hph (blkMicro_b2_waits (d := .tx) buf len p n h),
    fun hph h => spin hph (blkTxMicro_b7_waits buf len h),
    fun hph h => spin hph (blkMicro_b2_waits (d := .rx) buf len p n h)⟩

/-! ### Runs of a blocking command -/

/-- A run of HOST at a line of a blocking command is that line, then the rest. -/
theorem runHost_atBlk (k : Nat) {d : Dir} {buf : Addr} {len : Len} {ln : BlkLine} {s t : State}
    (hf : s.hfault = none) (h : blkMicro d buf len ln (s.atBlk d buf len ln) = t) :
    runHost (k + 1) (s.atBlk d buf len ln) = runHost k t :=
  runHost_next k (by simp) hf (congrArg _ h)

/-- A run of HOST at a spin line whose flag is not there stays (R192). -/
theorem runHost_atBlk_spin (k : Nat) {d : Dir} {buf : Addr} {len : Len} {ln : BlkLine} {s : State}
    (h : blkMicro d buf len ln (s.atBlk d buf len ln) = s.atBlk d buf len ln) :
    runHost k (s.atBlk d buf len ln) = .next (s.atBlk d buf len ln) :=
  runHost_spin k (congrArg _ h)

/-- A blocking command where HOST may begin it: past B0 and B1 it stands at B7, with nothing to transfer, or at B2. -/
theorem beginHost_blk_zero {d : Dir} {buf : Addr} {s : State} (hb : s.hostMayBegin = true) :
    beginHost (.blk d buf 0 .b0) s = runHost 14 (s.atBlk d buf 0 .b7) := by
  obtain ⟨-, -, hfault⟩ := s.hostMayBegin_iff.1 hb
  calc beginHost (.blk d buf 0 .b0) s
    _ = runHost hostFuel (s.atBlk d buf 0 .b0) := if_pos hb
    _ = runHost 15 (s.atBlk d buf 0 (.b1 buf 0)) := runHost_atBlk 15 hfault (by cases d <;> rfl)
    _ = runHost 14 (s.atBlk d buf 0 .b7) := runHost_atBlk 14 hfault (blkMicro_b1_done d buf 0 buf _)

theorem beginHost_blk_more {d : Dir} {buf : Addr} {len : Len} {s : State} (hb : s.hostMayBegin = true)
    (hlen : len ≠ 0) : beginHost (.blk d buf len .b0) s = runHost 14 (s.atBlk d buf len (.b2 buf len)) := by
  obtain ⟨-, -, hfault⟩ := s.hostMayBegin_iff.1 hb
  calc beginHost (.blk d buf len .b0) s
    _ = runHost hostFuel (s.atBlk d buf len .b0) := if_pos hb
    _ = runHost 15 (s.atBlk d buf len (.b1 buf len)) := runHost_atBlk 15 hfault (by cases d <;> rfl)
    _ = runHost 14 (s.atBlk d buf len (.b2 buf len)) :=
        runHost_atBlk 14 hfault (blkMicro_b1_more d buf len buf hlen _)

/-- An access that does not fault raises nothing in a blocking command (R195). -/
theorem State.blkAccessFault_none {s : State} {w : FrameWidth} {p : Addr} (d : Dir) (h : s.alignFaults w p = false) :
    s.blkAccessFault d w p = none := by
  rw [State.blkAccessFault, h]
  rfl

/-- The two halves of a split read are the unit (R75). -/
theorem State.assemble_split {s : State} {w : FrameWidth} {p : Addr} (h : s.splits w p = true) :
    assemble s.par.byteOrder (s.byteAt p) (s.byteAt (p + 1)) = s.readUnit w p := by
  rw [State.splits_w16 h]
  rfl

/-- The two halves of a split write are the unit (R75). -/
theorem State.putByte_split {s : State} {w : FrameWidth} {p : Addr} (v : Half) (h : s.splits w p = true) :
    (s.putByte p (firstByte s.par.byteOrder v)).putByte (p + 1) (secondByte s.par.byteOrder v) = s.writeUnit w p v := by
  rw [State.splits_w16 h]
  rfl

section
variable {s : State} {buf : Addr} {len : Len} {p : Addr} {n : Len}

/-- B3: the width is read from the live CR1 (R190, R191). -/
theorem runHost_blk_to_b4 (k : Nat) {d : Dir} (hf : s.hfault = none) (hflag : s.flagged d = true) :
    runHost (k + 2) (s.atBlk d buf len (.b2 p n)) = runHost k (s.atBlk d buf len (.b4 p n (dffWidth s.cr1))) :=
  calc runHost (k + 2) (s.atBlk d buf len (.b2 p n))
    _ = runHost (k + 1) (s.atBlk d buf len (.b3 p n)) :=
        runHost_atBlk _ hf (blkMicro_b2_passes (s := s.atBlk d buf len (.b2 p n)) buf len p n hflag)
    _ = runHost k (s.atBlk d buf len (.b4 p n (dffWidth s.cr1))) := runHost_atBlk _ hf (by cases d <;> rfl)

/-- What the read of a unit leaves: the line B5 with the unit, after one line or two (R75, R190). -/
theorem runHost_blkTx_read (k : Nat) {w : FrameWidth} (hf : s.hfault = none) (hal : s.alignFaults w p = false) :
    ∃ j, runHost (k + 2) (s.atBlk .tx buf len (.b4 p n w)) =
      runHost (j + k) (s.atBlk .tx buf len (.b5 p n w (s.readUnit w p))) := by
  have hnone := State.blkAccessFault_none .tx hal
  cases hsp : s.splits w p with
  | false =>
    refine ⟨1, ?_⟩
    rw [Nat.add_comm 1 k]
    refine runHost_atBlk (k + 1) hf ?_
    show blkTxMicro buf len (.b4 p n w) (s.atBlk .tx buf len (.b4 p n w)) = _
    have hnone' : (s.atBlk .tx buf len (.b4 p n w)).blkAccessFault .tx w p = none := hnone
    have hsp' : (s.atBlk .tx buf len (.b4 p n w)).splits w p = false := hsp
    simp only [blkTxMicro, hnone', hsp']
    cases w <;> rfl
  | true =>
    refine ⟨0, ?_⟩
    have hfirst : blkMicro .tx buf len (.b4 p n w) (s.atBlk .tx buf len (.b4 p n w)) =
        s.atBlk .tx buf len (.b4b p n w (s.byteAt p)) := by
      have hnone' : (s.atBlk .tx buf len (.b4 p n w)).blkAccessFault .tx w p = none := hnone
      have hsp' : (s.atBlk .tx buf len (.b4 p n w)).splits w p = true := hsp
      simp only [blkMicro, blkTxMicro, hnone', hsp']
      rfl
    rw [Nat.zero_add, ← State.assemble_split hsp]
    exact (runHost_atBlk (k + 1) hf hfirst).trans (runHost_atBlk k hf rfl)

/-- What the write of a unit leaves: the line B6, after one line or two (R75, R191). -/
theorem runHost_blkRx_write (k : Nat) {w : FrameWidth} (v : Half) (hf : s.hfault = none)
    (hal : s.alignFaults w p = false) :
    ∃ j, runHost (k + 2) (s.atBlk .rx buf len (.b5 p n w v)) =
      runHost (j + k) ((s.writeUnit w p v).atBlk .rx buf len (.b6 p n w)) := by
  have hnone := State.blkAccessFault_none .rx hal
  cases hsp : s.splits w p with
  | false =>
    refine ⟨1, ?_⟩
    rw [Nat.add_comm 1 k]
    refine runHost_atBlk (k + 1) hf ?_
    have hnone' : (s.atBlk .rx buf len (.b5 p n w v)).blkAccessFault .rx w p = none := hnone
    have hsp' : (s.atBlk .rx buf len (.b5 p n w v)).splits w p = false := hsp
    simp only [blkMicro, blkRxMicro, hnone', hsp']
    cases w <;> rfl
  | true =>
    refine ⟨0, ?_⟩
    have hfirst : blkMicro .rx buf len (.b5 p n w v) (s.atBlk .rx buf len (.b5 p n w v)) =
        (s.putByte p (firstByte s.par.byteOrder v)).atBlk .rx buf len (.b5b p n w v) := by
      have hnone' : (s.atBlk .rx buf len (.b5 p n w v)).blkAccessFault .rx w p = none := hnone
      have hsp' : (s.atBlk .rx buf len (.b5 p n w v)).splits w p = true := hsp
      simp only [blkMicro, blkRxMicro, hnone', hsp']
      rfl
    rw [Nat.zero_add, ← State.putByte_split v hsp]
    exact (runHost_atBlk (k + 1) hf hfirst).trans (runHost_atBlk k hf rfl)

/-- One unit of `BLK_TX`, alone: from B2 with TXE set to the test B1 on what is left (R190). -/
theorem runHost_blkTx_unit (k : Nat) (hf : s.hfault = none) (hflag : s.txe = true)
    (hal : s.alignFaults (dffWidth s.cr1) p = false) :
    ∃ j, runHost (k + 6) (s.atBlk .tx buf len (.b2 p n)) =
      runHost (j + k) ((s.drWr (dffWidth s.cr1) (s.readUnit (dffWidth s.cr1) p)).atBlk .tx buf len
        (.b1 (p + unitBytes (dffWidth s.cr1)) (n - unitBytes (dffWidth s.cr1)))) := by
  obtain ⟨j, hread⟩ := runHost_blkTx_read (buf := buf) (len := len) (n := n) (k + 2) hf hal
  refine ⟨j, (runHost_blk_to_b4 (k + 4) (d := .tx) hf hflag).trans (hread.trans ?_)⟩
  exact (runHost_atBlk (j + k + 1) hf rfl).trans (runHost_atBlk (j + k)
    (s := s.drWr (dffWidth s.cr1) (s.readUnit (dffWidth s.cr1) p)) hf rfl)

/-- One unit of `BLK_RX`, alone: from B2 with RXNE set to the test B1 on what is left (R191). -/
theorem runHost_blkRx_unit (k : Nat) (hf : s.hfault = none) (hflag : s.rxne = true)
    (hal : s.alignFaults (dffWidth s.cr1) p = false) :
    ∃ j, runHost (k + 6) (s.atBlk .rx buf len (.b2 p n)) =
      runHost (j + k) ((s.drReadEffect.writeUnit (dffWidth s.cr1) p (s.drValue (dffWidth s.cr1))).atBlk .rx buf len
        (.b1 (p + unitBytes (dffWidth s.cr1)) (n - unitBytes (dffWidth s.cr1)))) := by
  obtain ⟨j, hwrite⟩ := runHost_blkRx_write (s := s.drReadEffect) (buf := buf) (len := len) (n := n) (k + 1)
    (s.drValue (dffWidth s.cr1)) hf hal
  refine ⟨j, (runHost_blk_to_b4 (k + 4) (d := .rx) hf hflag).trans ?_⟩
  refine (runHost_atBlk (k + 3) hf rfl).trans (hwrite.trans ?_)
  exact runHost_atBlk (j + k) (by simpa using hf) rfl

/-- `BLK_TX` at B7 with BSY 0 ends (R190). -/
theorem runHost_blkTx_end (k : Nat) (hf : s.hfault = none) (hidle : s.hph = .idle) (hbsy : s.bsy = false) :
    runHost (k + 2) (s.atBlk .tx buf len .b7) = .next { s with resp := some respDone } :=
  calc runHost (k + 2) (s.atBlk .tx buf len .b7)
    _ = runHost (k + 1) (s.atBlk .tx buf len .b8) :=
        runHost_atBlk _ hf (blkTxMicro_b7_passes (s := s.atBlk .tx buf len .b7) buf len hbsy)
    _ = runHost k ((s.atBlk .tx buf len .b8).respond respDone) := runHost_atBlk _ hf rfl
    _ = .next ((s.atBlk .tx buf len .b8).respond respDone) := runHost_idle _ rfl
    _ = .next { s with resp := some respDone } := congrArg _ (State.respond_from_idle hidle _ _)

/-- `BLK_TX` at B7 with BSY 1 waits (R190, R192). -/
theorem runHost_blkTx_b7_spin (k : Nat) (hbsy : s.bsy = true) :
    runHost k (s.atBlk .tx buf len .b7) = .next (s.atBlk .tx buf len .b7) :=
  runHost_atBlk_spin k (blkTxMicro_b7_waits (s := s.atBlk .tx buf len .b7) buf len hbsy)

/-- `BLK_RX` at B7 ends: there is no wait on BSY (R191). -/
theorem runHost_blkRx_end (k : Nat) (hf : s.hfault = none) (hidle : s.hph = .idle) :
    runHost (k + 1) (s.atBlk .rx buf len .b7) = .next { s with resp := some respDone } :=
  calc runHost (k + 1) (s.atBlk .rx buf len .b7)
    _ = runHost k ((s.atBlk .rx buf len .b7).respond respDone) := runHost_atBlk _ hf rfl
    _ = .next ((s.atBlk .rx buf len .b7).respond respDone) := runHost_idle _ rfl
    _ = .next { s with resp := some respDone } := congrArg _ (State.respond_from_idle hidle _ _)

/-- A blocking command at B2 without its flag waits (R192). -/
theorem runHost_blk_b2_spin (k : Nat) {d : Dir} (hflag : s.flagged d = false) :
    runHost k (s.atBlk d buf len (.b2 p n)) = .next (s.atBlk d buf len (.b2 p n)) :=
  runHost_atBlk_spin k (blkMicro_b2_waits (s := s.atBlk d buf len (.b2 p n)) buf len p n hflag)

end

/-! ### Whole blocking commands -/

theorem unitBytes_ne_zero (w : FrameWidth) : unitBytes w ≠ 0 := by cases w <;> decide

section
variable {s : State} {buf : Addr} {len : Len}

/-- The state after the one unit `BLK_TX` sends alone (R190). -/
def State.sent (s : State) (buf : Addr) : State :=
  s.drWr (dffWidth s.cr1) (s.readUnit (dffWidth s.cr1) buf)

/-- The state after the one unit `BLK_RX` receives alone (R191). -/
def State.received (s : State) (buf : Addr) : State :=
  s.drReadEffect.writeUnit (dffWidth s.cr1) buf (s.drValue (dffWidth s.cr1))

/-- `BLK_TX` given TXE, alone: after its one unit it stands at B1 with the rest (R190). -/
theorem exec_blkTx_unit (hb : s.hostMayBegin = true) (hlen : len ≠ 0) (htxe : s.txe = true)
    (hal : s.alignFaults (dffWidth s.cr1) buf = false) :
    ∃ j, exec (.blkTx buf len) s = runHost (j + 8) ((s.sent buf).atBlk .tx buf len
      (.b1 (buf + unitBytes (dffWidth s.cr1)) (len - unitBytes (dffWidth s.cr1)))) := by
  obtain ⟨-, -, hfault⟩ := s.hostMayBegin_iff.1 hb
  obtain ⟨j, hunit⟩ := runHost_blkTx_unit (buf := buf) (len := len) (n := len) 8 hfault htxe hal
  exact ⟨j, (beginHost_blk_more hb hlen).trans hunit⟩

/-- `BLK_RX` given RXNE, alone: after its one unit it stands at B1 with the rest (R191). -/
theorem exec_blkRx_unit (hb : s.hostMayBegin = true) (hlen : len ≠ 0) (hrxne : s.rxne = true)
    (hal : s.alignFaults (dffWidth s.cr1) buf = false) :
    ∃ j, exec (.blkRx buf len) s = runHost (j + 8) ((s.received buf).atBlk .rx buf len
      (.b1 (buf + unitBytes (dffWidth s.cr1)) (len - unitBytes (dffWidth s.cr1)))) := by
  obtain ⟨-, -, hfault⟩ := s.hostMayBegin_iff.1 hb
  obtain ⟨j, hunit⟩ := runHost_blkRx_unit (buf := buf) (len := len) (n := len) 8 hfault hrxne hal
  exact ⟨j, (beginHost_blk_more hb hlen).trans hunit⟩

/-- `BLK_TX` of one unit, alone, is at B7 after it (R190). -/
theorem exec_blkTx_one (hb : s.hostMayBegin = true) (htxe : s.txe = true)
    (hal : s.alignFaults (dffWidth s.cr1) buf = false) (hlen : len = unitBytes (dffWidth s.cr1)) :
    ∃ j, exec (.blkTx buf len) s = runHost (j + 2) ((s.sent buf).atBlk .tx buf len .b7) := by
  have hfault : (s.sent buf).hfault = none := (s.hostMayBegin_iff.1 hb).2.2
  obtain ⟨j, h⟩ := exec_blkTx_unit hb (len := len) (hlen.trans_ne (unitBytes_ne_zero _)) htxe hal
  refine ⟨j + 5, h.trans (runHost_atBlk (j + 7) hfault ?_)⟩
  rw [(len_sub_eq_zero _ _).2 hlen]
  exact blkMicro_b1_done _ _ _ _ _

/-- `BLK_RX` of one unit, alone, is at B7 after it (R191). -/
theorem exec_blkRx_one (hb : s.hostMayBegin = true) (hrxne : s.rxne = true)
    (hal : s.alignFaults (dffWidth s.cr1) buf = false) (hlen : len = unitBytes (dffWidth s.cr1)) :
    ∃ j, exec (.blkRx buf len) s = runHost (j + 1) ((s.received buf).atBlk .rx buf len .b7) := by
  have hfault : (s.received buf).hfault = none := by
    simpa [State.received] using (s.hostMayBegin_iff.1 hb).2.2
  obtain ⟨j, h⟩ := exec_blkRx_unit hb (len := len) (hlen.trans_ne (unitBytes_ne_zero _)) hrxne hal
  refine ⟨j + 6, h.trans (runHost_atBlk (j + 7) hfault ?_)⟩
  rw [(len_sub_eq_zero _ _).2 hlen]
  exact blkMicro_b1_done _ _ _ _ _

end

/-- Settles O23: with nothing to send B1 goes to B7 at once, else after the one unit that TXE admits. -/
theorem blkTxCompletes : Obligations.BlkTxCompletes := by
  intro buf len s hb hbsy
  obtain ⟨hidle, -, hfault⟩ := s.hostMayBegin_iff.1 hb
  refine ⟨?_, fun htxe hlen hal => ?_⟩
  · rintro rfl
    exact (beginHost_blk_zero hb).trans (runHost_blkTx_end 12 hfault hidle hbsy)
  · obtain ⟨j, h⟩ := exec_blkTx_one hb htxe hal hlen
    obtain ⟨-, -, hbsy'⟩ := s.drWr_flags (dffWidth s.cr1) (s.readUnit (dffWidth s.cr1) buf)
    exact h.trans (runHost_blkTx_end (s := s.sent buf) j hfault hidle (hbsy'.trans hbsy))

/-- Settles O24: B7 waits on BSY; B2 waits on TXE, which each unit clears. -/
theorem blkTxWaits : Obligations.BlkTxWaits := by
  intro buf len s hb
  obtain ⟨hidle, -, hfault⟩ := s.hostMayBegin_iff.1 hb
  obtain ⟨htxe', -, hbsy'⟩ := s.drWr_flags (dffWidth s.cr1) (s.readUnit (dffWidth s.cr1) buf)
  refine ⟨?_, fun hlen htxe => ?_, fun hlen htxe hal hmore => ?_, fun htxe hal hlen hbsy => ?_⟩
  · rintro rfl hbsy
    exact (beginHost_blk_zero hb).trans (runHost_blkTx_b7_spin 14 hbsy)
  · exact (beginHost_blk_more hb hlen).trans (runHost_blk_b2_spin (d := .tx) 14 htxe)
  · obtain ⟨j, h⟩ := exec_blkTx_unit hb hlen htxe hal
    have hb1 := blkMicro_b1_more .tx buf len (buf + unitBytes (dffWidth s.cr1))
      (fun h0 => hmore ((len_sub_eq_zero len (unitBytes (dffWidth s.cr1))).1 h0))
    exact h.trans ((runHost_atBlk (s := s.sent buf) (j + 7) hfault (hb1 _)).trans
      (runHost_blk_b2_spin (s := s.sent buf) (d := .tx) (j + 7) htxe'))
  · obtain ⟨j, h⟩ := exec_blkTx_one hb htxe hal hlen
    exact h.trans (runHost_blkTx_b7_spin (s := s.sent buf) (j + 2) (hbsy'.trans hbsy))

/-- Settles O25: B7 is reached at once, or after the one unit that RXNE admits, and it ends the command. -/
theorem blkRxCompletes : Obligations.BlkRxCompletes := by
  intro buf len s hb
  obtain ⟨hidle, -, hfault⟩ := s.hostMayBegin_iff.1 hb
  refine ⟨?_, fun hrxne hlen hal => ?_⟩
  · rintro rfl
    exact (beginHost_blk_zero hb).trans (runHost_blkRx_end 13 hfault hidle)
  · obtain ⟨j, h⟩ := exec_blkRx_one hb hrxne hal hlen
    exact h.trans (runHost_blkRx_end (s := s.received buf) j (by simpa [State.received] using hfault)
      (by simpa [State.received] using hidle))

/-- Settles O26: B2 waits on RXNE, which each unit clears. -/
theorem blkRxWaits : Obligations.BlkRxWaits := by
  intro buf len s hb hlen
  obtain ⟨-, -, hfault⟩ := s.hostMayBegin_iff.1 hb
  obtain ⟨hrxne', -⟩ := s.drReadEffect_flags
  refine ⟨fun hrxne => ?_, fun hrxne hal hmore => ?_⟩
  · exact (beginHost_blk_more hb hlen).trans (runHost_blk_b2_spin (d := .rx) 14 hrxne)
  · obtain ⟨j, h⟩ := exec_blkRx_unit hb hlen hrxne hal
    have hb1 := blkMicro_b1_more .rx buf len (buf + unitBytes (dffWidth s.cr1))
      (fun h0 => hmore ((len_sub_eq_zero len (unitBytes (dffWidth s.cr1))).1 h0))
    have hrxne'' : (s.received buf).flagged .rx = false := by
      rw [State.flagged, State.received, State.writeUnit_sr]
      exact hrxne'
    exact h.trans ((runHost_atBlk (s := s.received buf) (j + 7) (by simpa [State.received] using hfault) (hb1 _)).trans
      (runHost_blk_b2_spin (j + 7) hrxne''))

/-- A two-byte access at an odd address faults under the fault policy (R74). -/
theorem State.alignFaults_w16_odd {s : State} {a : Addr} (ha : a.getLsbD 0 = true) (hp : s.par.align = .fault) :
    s.alignFaults .w16 a = true := by
  simp only [State.alignFaults, misaligned, ha, hp, decide_true, Bool.and_self]

/-- A misaligned access of a blocking command raises the fault that names it (R195). -/
theorem State.blkAccessFault_odd {s : State} {a : Addr} (d : Dir) (ha : a.getLsbD 0 = true) (hp : s.par.align = .fault) :
    s.blkAccessFault d .w16 a = some (.misaligned16 (blkAccessor d) a) :=
  if_pos (State.alignFaults_w16_odd ha hp)

/-- A fault raised by HOST where none stood is recorded and nothing else changes (R222). -/
theorem State.raiseHost_of_none {s : State} (f : Fault) (h : s.hfault = none) :
    s.raiseHost f = { s with hfault := some f } := by
  rw [State.raiseHost, h]

/-- Settles O27: B4 of `BLK_TX` and B5 of `BLK_RX` check the access before they make it. -/
theorem blkMisalignedStops : Obligations.BlkMisalignedStops := by
  intro buf len s hb hlen hdff hodd hpol
  obtain ⟨-, -, hfault⟩ := s.hostMayBegin_iff.1 hb
  have hw : dffWidth s.cr1 = .w16 := if_pos hdff
  have b4 (d : Dir) (hflag : s.flagged d = true) :
      beginHost (.blk d buf len .b0) s = runHost 12 (s.atBlk d buf len (.b4 buf len .w16)) := by
    rw [← hw]
    exact (beginHost_blk_more hb hlen).trans (runHost_blk_to_b4 12 hfault hflag)
  refine ⟨fun htxe => ?_, fun hrxne => ?_⟩
  · have hraise : blkMicro .tx buf len (.b4 buf len .w16) (s.atBlk .tx buf len (.b4 buf len .w16)) =
        { s with hfault := some (.misaligned16 .blkTx buf), hph := .blk .tx buf len (.b4 buf len .w16) } := by
      have hf := State.blkAccessFault_odd (s := s.atBlk .tx buf len (.b4 buf len .w16)) .tx hodd hpol
      simp only [blkMicro, blkTxMicro, hf]
      exact State.raiseHost_of_none _ hfault
    exact (b4 .tx htxe).trans ((runHost_atBlk 11 hfault hraise).trans (runHost_stopped 11 rfl))
  · have hraise : blkMicro .rx buf len (.b5 buf len .w16 s.drRx)
        (s.drReadEffect.atBlk .rx buf len (.b5 buf len .w16 s.drRx)) =
        { s.drReadEffect with
          hfault := some (.misaligned16 .blkRx buf), hph := .blk .rx buf len (.b5 buf len .w16 s.drRx) } := by
      have hf := State.blkAccessFault_odd (s := s.drReadEffect.atBlk .rx buf len (.b5 buf len .w16 s.drRx)) .rx hodd hpol
      simp only [blkMicro, blkRxMicro, hf]
      exact State.raiseHost_of_none _ hfault
    calc exec (.blkRx buf len) s
      _ = runHost 12 (s.atBlk .rx buf len (.b4 buf len .w16)) := b4 .rx hrxne
      _ = runHost 11 (s.drReadEffect.atBlk .rx buf len (.b5 buf len .w16 s.drRx)) := runHost_atBlk 11 hfault rfl
      _ = runHost 10 _ := runHost_atBlk 10 hfault hraise
      _ = _ := runHost_stopped 10 rfl

end Sys2Proof.Machine
end

section
/-! PROOFS. The steps and the closes run whole (R160 to R167), the faults of a step's access (R46, R74, R222). -/

namespace Sys2Proof.Machine

open Sys2Proof

/-! ### What a step or a close that completes leaves -/

/-- DISP at this line (R41). -/
def State.atLine (s : State) (p : DispPhase) : State := { s with dph := p }

/-- A state is at the line where it stands. -/
theorem State.atLine_self {s : State} {p : DispPhase} (h : s.dph = p) : s.atLine p = s := by
  rw [State.atLine, ← h]

/-- A direction closed and disarmed, DISP past the step (R165, R166). -/
def State.release (s : State) (d : Dir) : State :=
  (((s.rmwClr .cr2 (enableBit d)).setDesc d Desc.closed).setSpan d none).atLine (afterStep d)

/-- The descriptor of a direction moved on by one unit (R160). -/
def State.moveOn (s : State) (d : Dir) (w : FrameWidth) : State :=
  s.setDesc d { s.desc d with cur := (s.desc d).cur + unitBytes w, len := (s.desc d).len - unitBytes w }

/-- The tail of a step: at exactly zero the close, else past the step (R107, R160). -/
def State.tail (s : State) (d : Dir) (w : FrameWidth) : State :=
  if (s.desc d).len = unitBytes w then s.release d else (s.moveOn d w).atLine (afterStep d)

/-- The unit a transmit step hands to DR (R161, R162). -/
def State.txUnit (s : State) (w : FrameWidth) : State := s.drWr w (s.readUnit w s.tx.cur)

/-- The unit a receive step takes from DR and stores (R163, R164). -/
def State.rxUnit (s : State) (w : FrameWidth) : State := s.drReadEffect.writeUnit w s.rx.cur (s.drValue w)

/-! ### The lines of a step -/

/-- The lines T2, T3 and T4 of a step, the same in either direction (R160). -/
def advanceLine : Dir → FrameWidth → DispPhase
  | .tx, w => .stepTx w .t2
  | .rx, w => .stepRx w .t2

def countLine : Dir → FrameWidth → DispPhase
  | .tx, w => .stepTx w .t3
  | .rx, w => .stepRx w .t3

def tailLine : Dir → FrameWidth → DispPhase
  | .tx, w => .stepTx w .t4
  | .rx, w => .stepRx w .t4

/-- T4 goes to the close exactly where the count was one unit before T3 (R107, R160). -/
theorem tailMicro_moveOn (s : State) (d : Dir) (w : FrameWidth) (p : DispPhase) :
    tailMicro d ((s.moveOn d w).atLine p) =
      (s.moveOn d w).atLine (if (s.desc d).len = unitBytes w then .close d .k0 else afterStep d) := by
  have hlen : (((s.moveOn d w).atLine p).desc d).len = (s.desc d).len - unitBytes w := by cases d <;> rfl
  split
  · next h => exact tailMicro_zero (hlen.trans ((len_sub_eq_zero _ _).2 h))
  · next h => exact tailMicro_more (fun h0 => h ((len_sub_eq_zero _ _).1 (hlen.symm.trans h0)))

section
variable {s : State} {w : FrameWidth}

/-- T0 of a transmit step checks the access before it makes it (R74, R222). -/
theorem stepTxMicro_t0_fault {f : Fault} (h : s.stepAccessFault .tx w s.tx.cur = some f) :
    stepTxMicro w .t0 s = s.raiseDisp f := by
  simp only [stepTxMicro, h]

theorem stepTxMicro_t0_split (h : s.stepAccessFault .tx w s.tx.cur = none) (hsp : s.splits w s.tx.cur = true) :
    stepTxMicro w .t0 s = s.atLine (.stepTx w (.t0b (s.byteAt s.tx.cur))) := by
  simp only [stepTxMicro, h, hsp, if_true]
  rfl

theorem stepTxMicro_t0_whole (h : s.stepAccessFault .tx w s.tx.cur = none) (hsp : s.splits w s.tx.cur = false) :
    stepTxMicro w .t0 s = s.atLine (.stepTx w (.t1 (s.readUnit w s.tx.cur))) := by
  simp only [stepTxMicro, h, hsp, Bool.false_eq_true, if_false]
  rfl

/-- T1 of a receive step checks the access before it makes it (R74, R222). -/
theorem stepRxMicro_t1_fault {f : Fault} {v : Half} (h : s.stepAccessFault .rx w s.rx.cur = some f) :
    stepRxMicro w (.t1 v) s = s.raiseDisp f := by
  simp only [stepRxMicro, h]

theorem stepRxMicro_t1_split {v : Half} (h : s.stepAccessFault .rx w s.rx.cur = none)
    (hsp : s.splits w s.rx.cur = true) :
    stepRxMicro w (.t1 v) s = (s.putByte s.rx.cur (firstByte s.par.byteOrder v)).atLine (.stepRx w (.t1b v)) := by
  simp only [stepRxMicro, h, hsp, if_true]
  rfl

theorem stepRxMicro_t1_whole {v : Half} (h : s.stepAccessFault .rx w s.rx.cur = none)
    (hsp : s.splits w s.rx.cur = false) :
    stepRxMicro w (.t1 v) s = (s.writeUnit w s.rx.cur v).atLine (.stepRx w .t2) := by
  simp only [stepRxMicro, h, hsp, Bool.false_eq_true, if_false]
  rfl

end

/-- A fault raised by DISP where none stood is recorded and nothing else changes (R222). -/
theorem State.raiseDisp_of_none {s : State} (f : Fault) (h : s.dfault = none) :
    s.raiseDisp f = { s with dfault := some f } := by
  rw [State.raiseDisp, h]

/-! ### Runs of a step, line by line -/

/-- A run of a step at a line of it is that line, then the rest. -/
theorem runStep_line (k : Nat) {s t : State} {p : DispPhase} (hin : inStep p = true) (hf : s.dfault = none)
    (h : dispMicro (s.atLine p) = t) : runStep (k + 1) (s.atLine p) = runStep k t :=
  (runStep_next k (s := s.atLine p) hin hf).trans (congrArg _ h)

/-- A run of a step that has returned stays. -/
theorem runStep_returned (k : Nat) (s : State) (d : Dir) : runStep k (s.atLine (afterStep d)) = s.atLine (afterStep d) :=
  runStep_out k (by cases d <;> rfl)

/-- What K1 to K4 leave of the descriptor of a direction (R165, R166). -/
def State.clearing (s : State) (d : Dir) (x : Desc) : State := (s.rmwClr .cr2 (enableBit d)).setDesc d x

theorem State.clearing_dfault (s : State) (d : Dir) (x : Desc) : (s.clearing d x).dfault = s.dfault := by
  cases d <;> rfl

/-- A close from its first line to the return (R165, R166). -/
theorem runStep_close (k : Nat) {s : State} {d : Dir} (hf : s.dfault = none) :
    runStep (k + 6) (s.atLine (.close d .k0)) = s.release d :=
  have hclr (x : Desc) : (s.clearing d x).dfault = none := (s.clearing_dfault d x).trans hf
  calc runStep (k + 6) (s.atLine (.close d .k0))
    _ = runStep (k + 5) (s.atLine (.close d (.k1 s.cr2))) := runStep_line _ rfl hf rfl
    _ = runStep (k + 4) ((s.clearing d (s.desc d)).atLine (.close d .k2)) :=
        runStep_line _ rfl hf (by cases d <;> rfl)
    _ = runStep (k + 3) ((s.clearing d { s.desc d with cur := nullAddr }).atLine (.close d .k3)) :=
        runStep_line _ rfl (hclr _) (by cases d <;> rfl)
    _ = runStep (k + 2) ((s.clearing d { s.desc d with cur := nullAddr, len := 0 }).atLine (.close d .k4)) :=
        runStep_line _ rfl (hclr _) (by cases d <;> rfl)
    _ = runStep (k + 1) ((s.clearing d ⟨0, nullAddr, (s.desc d).state, .none⟩).atLine (.close d .k5)) :=
        runStep_line _ rfl (hclr _) (by cases d <;> rfl)
    _ = runStep k (s.release d) := runStep_line _ rfl (hclr _) (by cases d <;> rfl)
    _ = s.release d := runStep_returned k _ d

/-- The closed descriptor does not depend on what it was before. -/
theorem State.release_moveOn (s : State) (d : Dir) (w : FrameWidth) : (s.moveOn d w).release d = s.release d := by
  cases d <;> rfl

/-- T2 to T4 of a step, its close included (R160). -/
theorem runStep_tail (k : Nat) {s : State} (d : Dir) (w : FrameWidth) (hf : s.dfault = none) :
    runStep (k + 9) (s.atLine (advanceLine d w)) = s.tail d w :=
  have hadv : (s.advance d w).dfault = none := by rw [State.advance_dfault, hf]
  have hmove : (s.moveOn d w).dfault = none := by rw [State.moveOn, State.setDesc_dfault, hf]
  calc runStep (k + 9) (s.atLine (advanceLine d w))
    _ = runStep (k + 8) ((s.advance d w).atLine (countLine d w)) :=
        runStep_line _ (by cases d <;> rfl) hf (by cases d <;> rfl)
    _ = runStep (k + 7) ((s.moveOn d w).atLine (tailLine d w)) :=
        runStep_line _ (by cases d <;> rfl) hadv (by cases d <;> rfl)
    _ = runStep (k + 6) ((s.moveOn d w).atLine (if (s.desc d).len = unitBytes w then .close d .k0 else afterStep d)) := by
        refine runStep_line _ (by cases d <;> rfl) hmove ?_
        rw [← tailMicro_moveOn s d w (tailLine d w)]
        cases d <;> rfl
    _ = s.tail d w := by
        unfold State.tail
        split
        · rw [← State.release_moveOn s d w]
          exact runStep_close k hmove
        · exact runStep_returned _ _ d

/-- The read of a transmit step's unit, in one line or two (R75). -/
theorem runStep_tx_read (k : Nat) {s : State} {w : FrameWidth} (hf : s.dfault = none)
    (hacc : s.stepAccessFault .tx w s.tx.cur = none) :
    ∃ j, runStep (k + 2) (s.atLine (.stepTx w .t0)) =
      runStep (j + k) (s.atLine (.stepTx w (.t1 (s.readUnit w s.tx.cur)))) := by
  cases hsp : s.splits w s.tx.cur with
  | false =>
    refine ⟨1, ?_⟩
    rw [Nat.add_comm 1 k]
    refine runStep_line (k + 1) rfl hf ((stepTxMicro_t0_whole (s := s.atLine (.stepTx w .t0)) hacc hsp).trans ?_)
    cases w <;> rfl
  | true =>
    refine ⟨0, ?_⟩
    rw [Nat.zero_add, ← State.assemble_split hsp]
    calc runStep (k + 2) (s.atLine (.stepTx w .t0))
      _ = runStep (k + 1) (s.atLine (.stepTx w (.t0b (s.byteAt s.tx.cur)))) :=
          runStep_line _ rfl hf (stepTxMicro_t0_split (s := s.atLine (.stepTx w .t0)) hacc hsp)
      _ = _ := runStep_line _ rfl hf rfl

/-- The write of a receive step's unit, in one line or two (R75). -/
theorem runStep_rx_write (k : Nat) {s : State} {w : FrameWidth} (v : Half) (hf : s.dfault = none)
    (hacc : s.stepAccessFault .rx w s.rx.cur = none) :
    ∃ j, runStep (k + 2) (s.atLine (.stepRx w (.t1 v))) =
      runStep (j + k) ((s.writeUnit w s.rx.cur v).atLine (.stepRx w .t2)) := by
  cases hsp : s.splits w s.rx.cur with
  | false =>
    refine ⟨1, ?_⟩
    rw [Nat.add_comm 1 k]
    refine runStep_line (k + 1) rfl hf ((stepRxMicro_t1_whole (s := s.atLine (.stepRx w (.t1 v))) hacc hsp).trans ?_)
    cases w <;> rfl
  | true =>
    refine ⟨0, ?_⟩
    rw [Nat.zero_add, ← State.putByte_split v hsp]
    calc runStep (k + 2) (s.atLine (.stepRx w (.t1 v)))
      _ = runStep (k + 1) ((s.putByte s.rx.cur (firstByte s.par.byteOrder v)).atLine (.stepRx w (.t1b v))) :=
          runStep_line _ rfl hf (stepRxMicro_t1_split (s := s.atLine (.stepRx w (.t1 v))) hacc hsp)
      _ = _ := runStep_line _ rfl hf rfl

/-! ### Whole steps -/

/-- A transmit step whose access is allowed: the unit to DR, then its tail (R161, R162). -/
theorem runStep_tx {s : State} {w : FrameWidth} (hf : s.dfault = none)
    (hacc : s.stepAccessFault .tx w s.tx.cur = none) :
    runStep stepFuel (s.atLine (.stepTx w .t0)) = (s.txUnit w).tail .tx w := by
  obtain ⟨j, hread⟩ := runStep_tx_read 10 hf hacc
  calc runStep stepFuel (s.atLine (.stepTx w .t0))
    _ = runStep (j + 10) (s.atLine (.stepTx w (.t1 (s.readUnit w s.tx.cur)))) := hread
    _ = runStep (j + 9) ((s.txUnit w).atLine (advanceLine .tx w)) := runStep_line _ rfl hf rfl
    _ = (s.txUnit w).tail .tx w := runStep_tail j .tx w hf

/-- A transmit step whose access faults does nothing but record it (R222). -/
theorem runStep_tx_fault {s : State} {w : FrameWidth} {f : Fault} (hf : s.dfault = none)
    (hacc : s.stepAccessFault .tx w s.tx.cur = some f) :
    runStep stepFuel (s.atLine (.stepTx w .t0)) = { s.atLine (.stepTx w .t0) with dfault := some f } :=
  have hline := (stepTxMicro_t0_fault (s := s.atLine (.stepTx w .t0)) hacc).trans (State.raiseDisp_of_none f hf)
  (runStep_line (p := .stepTx w .t0) 11 rfl hf hline).trans (runStep_stopped 11 rfl)

/-- A receive step whose access is allowed: DR read, the unit stored, then its tail (R163, R164). -/
theorem runStep_rx {s : State} {w : FrameWidth} (hf : s.dfault = none)
    (hacc : s.stepAccessFault .rx w s.rx.cur = none) :
    runStep stepFuel (s.atLine (.stepRx w .t0)) = (s.rxUnit w).tail .rx w := by
  obtain ⟨j, hwrite⟩ := runStep_rx_write (s := s.drReadEffect) 9 (s.drValue w) hf hacc
  calc runStep stepFuel (s.atLine (.stepRx w .t0))
    _ = runStep 11 (s.drReadEffect.atLine (.stepRx w (.t1 (s.drValue w)))) := runStep_line _ rfl hf rfl
    _ = runStep (j + 9) ((s.rxUnit w).atLine (advanceLine .rx w)) := hwrite
    _ = (s.rxUnit w).tail .rx w := runStep_tail j .rx w (by rw [State.rxUnit, State.writeUnit_dfault]; exact hf)

/-- A receive step whose access faults has only read DR (R222). -/
theorem runStep_rx_fault {s : State} {w : FrameWidth} {f : Fault} (hf : s.dfault = none)
    (hacc : s.stepAccessFault .rx w s.rx.cur = some f) :
    runStep stepFuel (s.atLine (.stepRx w .t0)) =
      { s.drReadEffect.atLine (.stepRx w (.t1 (s.drValue w))) with dfault := some f } :=
  have hline := (stepRxMicro_t1_fault (s := s.drReadEffect.atLine (.stepRx w (.t1 (s.drValue w))))
    (v := s.drValue w) hacc).trans (State.raiseDisp_of_none f hf)
  calc runStep stepFuel (s.atLine (.stepRx w .t0))
    _ = runStep 11 (s.drReadEffect.atLine (.stepRx w (.t1 (s.drValue w)))) := runStep_line _ rfl hf rfl
    _ = runStep 10 _ := runStep_line (s := s.drReadEffect) _ rfl hf hline
    _ = _ := runStep_stopped 10 rfl

/-- A step or close begun at its first line is its run. -/
theorem beginStep_at {s : State} {p : DispPhase} (hdph : s.dph = p) (hf : s.dfault = none) :
    beginStep p s = .next (runStep stepFuel (s.atLine p)) := by
  rw [beginStep, if_pos ⟨hdph, hf⟩, State.atLine_self hdph]

/-! ### The state after a step, written out -/

/-- An 8-bit value is the low byte of itself zero-extended (R103). -/
@[simp] theorem extractLsb'_setWidth_byte (b : Byte) : (b.setWidth 16).extractLsb' 0 8 = b := by
  rw [BitVec.extractLsb'_setWidth_of_le (by decide), BitVec.extractLsb'_eq_self]

theorem State.txUnit_w8 (s : State) : s.txUnit .w8 = { s with
    drTx := (s.byteAt s.tx.cur).setWidth 16, txlog := s.txlog ++ [LogEntry.b8 (s.byteAt s.tx.cur)],
    sr := clrBit s.sr 1 } := by
  simp only [State.txUnit, State.drWr, State.readUnit, frameZext, logEntry, extractLsb'_setWidth_byte]

theorem State.txUnit_w16 (s : State) : s.txUnit .w16 = { s with
    drTx := assemble s.par.byteOrder (s.byteAt s.tx.cur) (s.byteAt (s.tx.cur + 1)),
    txlog := s.txlog ++ [LogEntry.b16 (assemble s.par.byteOrder (s.byteAt s.tx.cur) (s.byteAt (s.tx.cur + 1)))],
    sr := clrBit s.sr 1 } :=
  rfl

/-- The tail of a step writes no memory (R160). -/
theorem State.tail_mem (s : State) (d : Dir) (w : FrameWidth) : (s.tail d w).mem = s.mem := by
  unfold State.tail
  split <;> cases d <;> rfl

theorem State.byteAt_tail (s : State) (d : Dir) (w : FrameWidth) (a : Addr) : (s.tail d w).byteAt a = s.byteAt a := by
  rw [State.byteAt, State.tail_mem, State.byteAt]

/-- Settles O30: the run of the lines is the unit to DR and the tail, here written out. -/
theorem stepTxCompletes : Obligations.StepTxCompletes := by
  intro s hf
  refine ⟨fun hdph hacc => ?_, fun hdph hacc => ?_⟩ <;> refine (beginStep_at hdph hf).trans (congrArg _ ?_)
  · rw [runStep_tx hf hacc, State.txUnit_w8]
    rfl
  · rw [runStep_tx hf hacc, State.txUnit_w16]
    rfl

/-- The tail of a step reads no memory. -/
theorem State.tail_setMem (s : State) (d : Dir) (w : FrameWidth) (m : Memory) :
    { s.tail d w with mem := m } = ({ s with mem := m } : State).tail d w := by
  unfold State.tail
  by_cases hlen : (s.desc d).len = unitBytes w
  · rw [if_pos hlen, if_pos (by cases d <;> exact hlen)]
    cases d <;> rfl
  · rw [if_neg hlen, if_neg (by cases d <;> exact hlen)]
    cases d <;> rfl

/-- The bytes of memory after the unit of a receive step (R163, R164). -/
theorem State.byteAt_rxUnit_w8 {s : State} (hw : s.mem.wf = true) :
    (s.rxUnit .w8).byteAt s.rx.cur = s.drRx.extractLsb' 0 8 := by
  rw [State.rxUnit, State.byteAt_writeUnit8 (s := s.drReadEffect) _ _ hw, State.drValue, extractLsb'_setWidth_byte]

theorem State.assemble_rxUnit_w16 {s : State} (hw : s.mem.wf = true) :
    assemble s.par.byteOrder ((s.rxUnit .w16).byteAt s.rx.cur) ((s.rxUnit .w16).byteAt (s.rx.cur + 1)) = s.drRx := by
  rw [State.rxUnit, State.byteAt_writeUnit16_first (s := s.drReadEffect) _ _ hw,
    State.byteAt_writeUnit16_second (s := s.drReadEffect) _ _ hw]
  exact assemble_bytes s.par.byteOrder s.drRx

/-- Settles O31: the run of the lines is the unit stored and the tail, which writes no memory. -/
theorem stepRxCompletes : Obligations.StepRxCompletes := by
  intro s hw hf
  refine ⟨fun hdph hacc => ?_, fun hdph hacc => ?_⟩
  · refine ⟨(s.rxUnit .w8).tail .rx .w8, ?_, ?_, fun a ha => ?_, ?_⟩
    · exact (beginStep_at hdph hf).trans (congrArg _ (runStep_rx hf hacc))
    · rw [State.byteAt_tail, State.byteAt_rxUnit_w8 hw]
    · rw [State.byteAt_tail]
      exact State.byteAt_writeUnit8_ne s.drReadEffect _ ha
    · rw [State.tail_setMem]
      rfl
  · refine ⟨(s.rxUnit .w16).tail .rx .w16, ?_, ?_, fun a ha ha' => ?_, ?_⟩
    · exact (beginStep_at hdph hf).trans (congrArg _ (runStep_rx hf hacc))
    · rw [State.byteAt_tail, State.byteAt_tail, State.assemble_rxUnit_w16 hw]
    · rw [State.byteAt_tail]
      exact State.byteAt_writeUnit16_ne s.drReadEffect _ ha ha'
    · rw [State.tail_setMem]
      rfl

/-! ### Faults of a step's access -/

/-- A transmit step whose access faults records it and does nothing (R222). -/
theorem beginStep_tx_fault {s : State} {w : FrameWidth} {f : Fault} (hdph : s.dph = .stepTx w .t0)
    (hf : s.dfault = none) (hacc : s.stepAccessFault .tx w s.tx.cur = some f) :
    beginStep (.stepTx w .t0) s = .next { s with dfault := some f } := by
  rw [beginStep_at hdph hf, runStep_tx_fault hf hacc, State.atLine_self hdph]

/-- A receive step whose access faults records it at T1, DR read (R222). -/
theorem beginStep_rx_fault {s : State} {w : FrameWidth} {f : Fault} (hdph : s.dph = .stepRx w .t0)
    (hf : s.dfault = none) (hacc : s.stepAccessFault .rx w s.rx.cur = some f) :
    beginStep (.stepRx w .t0) s =
      .next { s with sr := clrBit s.sr 0, dph := .stepRx w (.t1 (s.drValue w)), dfault := some f } := by
  rw [beginStep_at hdph hf, runStep_rx_fault hf hacc]
  rfl

/-- A misaligned two-byte access under the fault policy faults before the bounds are looked at (R222). -/
theorem State.stepAccessFault_odd {s : State} {a : Addr} (d : Dir) (ha : a.getLsbD 0 = true)
    (hp : s.par.align = .fault) : s.stepAccessFault d .w16 a = some (.misaligned16 (.step d) a) :=
  if_pos (State.alignFaults_w16_odd ha hp)

/-- Settles O32: the alignment is the first check of the access. -/
theorem stepMisalignedStops : Obligations.StepMisalignedStops := by
  intro s hf hp
  exact ⟨fun hdph hodd => beginStep_tx_fault hdph hf (State.stepAccessFault_odd .tx hodd hp),
    fun hdph hodd => beginStep_rx_fault hdph hf (State.stepAccessFault_odd .rx hodd hp)⟩

/-- An access whose alignment is allowed faults for the lowest byte outside the span (R46). -/
theorem State.stepAccessFault_outOfBounds {s : State} {d : Dir} {w : FrameWidth} {a b : Addr}
    (hal : s.alignFaults w a = false) (hcheck : s.par.boundsCheck = true) (hout : outOfBounds (s.span d) w a = some b) :
    s.stepAccessFault d w a = some (.bufferBounds d b) := by
  rw [State.stepAccessFault, hal, if_neg (by decide), if_pos hcheck, hout]
  rfl

/-- A one-byte access is outside exactly at its own address (R222). -/
theorem outOfBounds_w8_eq_some_iff (sp : Option Span) (a b : Addr) :
    outOfBounds sp .w8 a = some b ↔ b = a ∧ outside sp a = true := by
  rw [outOfBounds]
  split
  · next h => simp [h, eq_comm]
  · next h => simp [h]

/-- A two-byte access is outside exactly where one of its bytes is (R222). -/
theorem outOfBounds_w16_eq_none_iff (sp : Option Span) (a : Addr) :
    outOfBounds sp .w16 a = none ↔ outside sp a = false ∧ outside sp (a + 1) = false := by
  rw [outOfBounds]
  cases outside sp a <;> cases outside sp (a + 1) <;> simp
  split <;> simp

/-- A two-byte access is answered by the lower address among those of its bytes outside (R222; log 13). -/
theorem outOfBounds_w16_eq_some_iff (sp : Option Span) (a b : Addr) :
    outOfBounds sp .w16 a = some b ↔ (b = a ∨ b = a + 1) ∧ outside sp b = true ∧
      ∀ x, (x = a ∨ x = a + 1) → outside sp x = true → b.toNat ≤ x.toNat := by
  have hne := addr_succ_ne a
  rw [outOfBounds]
  cases ha : outside sp a <;> cases ha' : outside sp (a + 1)
  case false.false =>
    simp only [Bool.false_eq_true, if_false, reduceCtorEq, false_iff]
    rintro ⟨rfl | rfl, hb, -⟩ <;> simp_all
  case false.true =>
    simp only [Bool.false_eq_true, if_false, if_true, Option.some.injEq]
    constructor
    · rintro rfl
      exact ⟨.inr rfl, ha', by rintro x (rfl | rfl) hx <;> simp_all⟩
    · rintro ⟨rfl | rfl, hb, -⟩
      · simp_all
      · rfl
  case true.false =>
    simp only [Bool.false_and, Bool.false_eq_true, if_false, if_true, Option.some.injEq]
    constructor
    · rintro rfl
      exact ⟨.inl rfl, ha, by rintro x (rfl | rfl) hx <;> simp_all⟩
    · rintro ⟨rfl | rfl, hb, -⟩
      · rfl
      · simp_all
  case true.true =>
    simp only [Bool.true_and, decide_eq_true_eq, if_true]
    split
    · next hlt =>
      rw [Option.some.injEq]
      constructor
      · rintro rfl
        exact ⟨.inr rfl, ha', by rintro x (rfl | rfl) _ <;> omega⟩
      · rintro ⟨rfl | rfl, -, hmin⟩
        · exact absurd (hmin _ (.inr rfl) ha') (by omega)
        · rfl
    · next hge =>
      rw [Option.some.injEq]
      constructor
      · rintro rfl
        exact ⟨.inl rfl, ha, by rintro x (rfl | rfl) _ <;> omega⟩
      · rintro ⟨rfl | rfl, -, hmin⟩
        · rfl
        · have hle := hmin a (.inl rfl) ha
          exact absurd (BitVec.eq_of_toNat_eq (by omega)) hne

/-- A span is the addresses [buf, buf + len), modulo 2^32 (R46, R82). -/
theorem outside_span_iff (buf : Addr) (len : Len) (a : Addr) :
    outside (some ⟨buf, len⟩) a = false ↔ ∃ k : Nat, k < len.toNat ∧ a = buf + BitVec.ofNat 32 k := by
  simp only [outside, Span.holds, Bool.not_eq_false', decide_eq_true_eq]
  constructor
  · intro h
    refine ⟨(a - buf).toNat, h, ?_⟩
    rw [BitVec.ofNat_toNat, BitVec.setWidth_eq, BitVec.add_comm, BitVec.sub_add_cancel]
  · rintro ⟨k, hk, rfl⟩
    have := len.isLt
    rw [BitVec.add_comm, BitVec.add_sub_cancel, BitVec.toNat_ofNat, Nat.mod_eq_of_lt (by omega)]
    exact hk

/-- A span that does not wrap is an interval of addresses (R46). -/
theorem outside_span_iff_interval {buf : Addr} {len : Len} (a : Addr) (h : buf.toNat + len.toNat ≤ 2 ^ 32) :
    outside (some ⟨buf, len⟩) a = false ↔ buf.toNat ≤ a.toNat ∧ a.toNat < buf.toNat + len.toNat := by
  simp only [outside, Span.holds, Bool.not_eq_false', decide_eq_true_eq, BitVec.toNat_sub]
  have := a.isLt
  have := buf.isLt
  omega

/-- A step's access faults exactly for its alignment or its bounds (R46, R74). -/
theorem State.stepAccessFault_eq_none_iff (s : State) (d : Dir) (w : FrameWidth) (a : Addr) :
    s.stepAccessFault d w a = none ↔ (w = .w16 → a.getLsbD 0 = true → s.par.align = .split) ∧
      (s.par.boundsCheck = true → outOfBounds (s.span d) w a = none) := by
  have hal : s.alignFaults w a = false ↔ (w = .w16 → a.getLsbD 0 = true → s.par.align = .split) := by
    cases w with
    | w8 => simp
    | w16 => cases hp : s.par.align <;> simp [State.alignFaults, misaligned, hp]
  rw [← hal, State.stepAccessFault]
  cases s.alignFaults w a <;> cases s.par.boundsCheck <;> simp

/-- Settles O33: the bounds are the second check of the access, and a span is an interval modulo 2^32. -/
theorem stepOutOfBoundsStops : Obligations.StepOutOfBoundsStops := by
  refine ⟨?stops, ?bytes, ?span, State.stepAccessFault_eq_none_iff⟩
  case stops =>
    intro s b hf hcheck
    refine ⟨fun hdph hout => ?_, fun hdph hal hout => ?_, fun hdph hout => ?_, fun hdph hal hout => ?_⟩
    · exact beginStep_tx_fault hdph hf (State.stepAccessFault_outOfBounds (d := .tx) (s.alignFaults_w8 _) hcheck hout)
    · exact beginStep_tx_fault hdph hf (State.stepAccessFault_outOfBounds (d := .tx) hal hcheck hout)
    · exact beginStep_rx_fault hdph hf (State.stepAccessFault_outOfBounds (d := .rx) (s.alignFaults_w8 _) hcheck hout)
    · exact beginStep_rx_fault hdph hf (State.stepAccessFault_outOfBounds (d := .rx) hal hcheck hout)
  case bytes =>
    exact fun sp a => ⟨outOfBounds_w8_eq_some_iff sp a, outOfBounds_w16_eq_none_iff sp a,
      outOfBounds_w16_eq_some_iff sp a⟩
  case span =>
    exact fun buf len a => ⟨rfl, outside_span_iff buf len a, outside_span_iff_interval a⟩

/-! ### Closes, and steps not invoked -/

/-- Settles O34: the lines K0 to K5 run to the return. -/
theorem closeCompletes : Obligations.CloseCompletes := by
  intro s hf
  refine ⟨fun hdph => ?_, fun hdph => ?_⟩ <;>
  · refine (beginStep_at hdph hf).trans (congrArg _ ((runStep_close 6 hf).trans ?_))
    rfl

/-- A step or close elsewhere than at its first line changes nothing (log 2). -/
theorem beginStep_elsewhere {s : State} {p : DispPhase} (h : s.dph ≠ p) : beginStep p s = .next s :=
  if_neg fun h' => h h'.1

/-- Settles O35: each step and close is begun only at its first line. -/
theorem stepsRunOnlyWhenInvoked : Obligations.StepsRunOnlyWhenInvoked := fun _ =>
  ⟨beginStep_elsewhere, beginStep_elsewhere, beginStep_elsewhere, beginStep_elsewhere, beginStep_elsewhere,
    beginStep_elsewhere⟩

/-- An odd count less two is odd. -/
theorem getLsbD_zero_sub_two {l : Len} (h : l.getLsbD 0 = true) : (l - 2).getLsbD 0 = true := by
  have htwo : (2 : Len).toNat = 2 := rfl
  simp only [BitVec.getLsbD, Nat.testBit_zero, decide_eq_true_eq, BitVec.toNat_sub, htwo] at h ⊢
  omega

/-- The tail of a 16-bit step on an odd count moves on and does not close (R167). -/
theorem State.tail_odd {s : State} {d : Dir} (h : (s.desc d).len.getLsbD 0 = true) :
    s.tail d .w16 = (s.moveOn d .w16).atLine (afterStep d) := by
  refine if_neg fun hlen => ?_
  rw [hlen] at h
  cases h

/-- Settles O36: two from an odd count leaves an odd one, so T4 never finds zero; a fault leaves the count. -/
theorem oddCountNeverCloses : Obligations.OddCountNeverCloses := by
  intro s t hf
  refine ⟨fun hdph hodd h => ?_, fun hdph hodd h => ?_⟩
  · cases hacc : s.stepAccessFault .tx .w16 s.tx.cur with
    | some f =>
      cases (beginStep_tx_fault hdph hf hacc).symm.trans h
      exact ⟨hodd, rfl, rfl, rfl⟩
    | none =>
      have ht := (beginStep_at hdph hf).symm.trans h
      rw [runStep_tx hf hacc, State.tail_odd (s := s.txUnit .w16) (d := .tx) hodd] at ht
      cases ht
      exact ⟨getLsbD_zero_sub_two hodd, rfl, rfl, rfl⟩
  · cases hacc : s.stepAccessFault .rx .w16 s.rx.cur with
    | some f =>
      cases (beginStep_rx_fault hdph hf hacc).symm.trans h
      exact ⟨hodd, rfl, rfl, rfl⟩
    | none =>
      have ht := (beginStep_at hdph hf).symm.trans h
      rw [runStep_rx hf hacc, State.tail_odd (s := s.rxUnit .w16) (d := .rx) hodd] at ht
      cases ht
      exact ⟨getLsbD_zero_sub_two hodd, rfl, rfl, rfl⟩

end Sys2Proof.Machine
end

section
/-! PROOFS. The dispatcher (R180 to R188, R230 to R232), and the hazard of R258. -/

namespace Sys2Proof.Machine

open Sys2Proof

/-! ### The gate -/

/-- A gate leads to the first line of a step exactly where it is open and that step is bound (R106, R181). -/
theorem gateMicro_dph_eq_iff {d : Dir} {e v : Half} {s : State} (hs : inStep s.dph = false) (w : FrameWidth) :
    (gateMicro d e v s).dph = stepEntry d w ↔ gateOpen d e v = true ∧ (s.desc d).sel = Sel.ofWidth w := by
  have hne : s.dph ≠ stepEntry d w := by
    rintro h
    rw [h] at hs
    cases d <;> cases hs
  cases hgate : gateOpen d e v with
  | false =>
    rw [gateMicro_closed s hgate]
    cases d <;> simp [afterStep, stepEntry]
  | true =>
    cases hsel : (s.desc d).sel with
    | none => rw [gateMicro_null hgate hsel, State.raiseDisp_dph]; cases w <;> simp [hne, Sel.ofWidth]
    | reserved => rw [gateMicro_reserved hgate hsel, State.raiseDisp_dph]; cases w <;> simp [hne, Sel.ofWidth]
    | w8 => rw [gateMicro_bound (w := .w8) hgate hsel]; cases d <;> cases w <;> simp [stepEntry, Sel.ofWidth]
    | w16 => rw [gateMicro_bound (w := .w16) hgate hsel]; cases d <;> cases w <;> simp [stepEntry, Sel.ofWidth]

/-- A gate leads to a line of a step exactly where it is open and a step is bound (R181, R185). -/
theorem inStep_gateMicro_iff {d : Dir} {e v : Half} {s : State} (hs : inStep s.dph = false) :
    inStep (gateMicro d e v s).dph = true ↔ gateOpen d e v = true ∧ (s.desc d).sel.bound = true := by
  cases hgate : gateOpen d e v with
  | false =>
    rw [gateMicro_closed s hgate]
    cases d <;> simp [afterStep, inStep]
  | true =>
    cases hsel : (s.desc d).sel with
    | none => rw [gateMicro_null hgate hsel, State.raiseDisp_dph]; simp [hs, Sel.bound]
    | reserved => rw [gateMicro_reserved hgate hsel, State.raiseDisp_dph]; simp [hs, Sel.bound]
    | w8 => rw [gateMicro_bound (w := .w8) hgate hsel]; cases d <;> simp [stepEntry, inStep, Sel.bound]
    | w16 => rw [gateMicro_bound (w := .w16) hgate hsel]; cases d <;> simp [stepEntry, inStep, Sel.bound]

/-- Settles O37: I2 and I5 are the gates, and a gate is open where enable bit and flag are both 1. -/
theorem gateNeedsBoth : Obligations.GateNeedsBoth := by
  intro s e v
  refine ⟨fun hdph => ?_, fun hdph => ?_⟩
  · have hout : inStep s.dph = false := by rw [hdph]; rfl
    rw [dispMicro, hdph]
    refine ⟨fun w => ?_, ?_⟩
    · exact (gateMicro_dph_eq_iff (d := .tx) hout w).trans (by rw [gateOpen_iff, and_assoc]; rfl)
    · exact (inStep_gateMicro_iff hout).trans (by rw [gateOpen_iff, and_assoc]; rfl)
  · have hout : inStep s.dph = false := by rw [hdph]; rfl
    rw [dispMicro, hdph]
    refine ⟨fun w => ?_, ?_⟩
    · exact (gateMicro_dph_eq_iff (d := .rx) hout w).trans (by rw [gateOpen_iff, and_assoc]; rfl)
    · exact (inStep_gateMicro_iff hout).trans (by rw [gateOpen_iff, and_assoc]; rfl)

/-! ### Runs of a dispatch, line by line -/

/-- A run of a dispatch at a line of it is that line, then the rest. -/
theorem runDisp_line (k : Nat) {s t : State} {p : DispPhase} (hp : p ≠ .idle) (hf : s.dfault = none)
    (h : dispMicro (s.atLine p) = t) : runDisp (k + 1) (s.atLine p) = runDisp k t :=
  (runDisp_next k (s := s.atLine p) hp hf).trans (congrArg _ h)

/-- I0 to I2: the transmit gate is tested on the live CR2 and SR (R180, R181). -/
theorem runDisp_to_tx_gate (k : Nat) {s : State} (hf : s.dfault = none) :
    runDisp (k + 3) (s.atLine .i0) = runDisp k (gateMicro .tx s.cr2 s.sr (s.atLine (.i2 s.cr2 s.sr))) :=
  calc runDisp (k + 3) (s.atLine .i0)
    _ = runDisp (k + 2) (s.atLine (.i1 s.cr2)) := runDisp_line _ (by simp) hf rfl
    _ = runDisp (k + 1) (s.atLine (.i2 s.cr2 s.sr)) := runDisp_line _ (by simp) hf rfl
    _ = runDisp k (gateMicro .tx s.cr2 s.sr (s.atLine (.i2 s.cr2 s.sr))) := runDisp_line _ (by simp) hf rfl

/-- I3 to I5: the receive gate is tested on CR2 and SR as they are by then (R180, R183). -/
theorem runDisp_to_rx_gate (k : Nat) {s : State} (hf : s.dfault = none) :
    runDisp (k + 3) (s.atLine .i3) = runDisp k (gateMicro .rx s.cr2 s.sr (s.atLine (.i5 s.cr2 s.sr))) :=
  calc runDisp (k + 3) (s.atLine .i3)
    _ = runDisp (k + 2) (s.atLine (.i4 s.cr2)) := runDisp_line _ (by simp) hf rfl
    _ = runDisp (k + 1) (s.atLine (.i5 s.cr2 s.sr)) := runDisp_line _ (by simp) hf rfl
    _ = runDisp k (gateMicro .rx s.cr2 s.sr (s.atLine (.i5 s.cr2 s.sr))) := runDisp_line _ (by simp) hf rfl

/-- A dispatch in a step runs that step first. -/
theorem runDisp_runStep (n k : Nat) (s : State) : ∃ j, runDisp (n + k) s = runDisp (j + k) (runStep n s) := by
  induction n generalizing s with
  | zero => exact ⟨0, rfl⟩
  | succ n ih =>
    cases hin : inStep s.dph with
    | false => exact ⟨n + 1, by rw [runStep_out _ hin]⟩
    | true =>
      cases hf : s.dfault with
      | some f => exact ⟨n + 1, by rw [runStep_stopped _ (by rw [hf]; rfl)]⟩
      | none =>
        obtain ⟨j, hj⟩ := ih (dispMicro s)
        have hne : s.dph ≠ .idle := fun h => by rw [h] at hin; cases hin
        refine ⟨j, ?_⟩
        rw [runStep_next n hin hf, Nat.add_right_comm, runDisp_next (n + k) hne hf, hj]

/-- The tail of a step leaves DISP past the step. -/
theorem State.tail_dph (s : State) (d : Dir) (w : FrameWidth) : (s.tail d w).dph = afterStep d := by
  unfold State.tail
  split <;> rfl

/-- A transmit step that no fault stops has returned to I3 (R160, R180). -/
theorem runStep_tx_returns {s : State} {w : FrameWidth} (hf : s.dfault = none)
    (h : (runStep stepFuel (s.atLine (.stepTx w .t0))).dfault = none) :
    (runStep stepFuel (s.atLine (.stepTx w .t0))).dph = .i3 := by
  cases hacc : s.stepAccessFault .tx w s.tx.cur with
  | some f => rw [runStep_tx_fault hf hacc] at h; cases h
  | none => rw [runStep_tx hf hacc]; exact State.tail_dph _ .tx w

/-- A receive step that no fault stops has returned from the dispatch (R160, R180). -/
theorem runStep_rx_returns {s : State} {w : FrameWidth} (hf : s.dfault = none)
    (h : (runStep stepFuel (s.atLine (.stepRx w .t0))).dfault = none) :
    (runStep stepFuel (s.atLine (.stepRx w .t0))).dph = .idle := by
  cases hacc : s.stepAccessFault .rx w s.rx.cur with
  | some f => rw [runStep_rx_fault hf hacc] at h; cases h
  | none => rw [runStep_rx hf hacc]; exact State.tail_dph _ .rx w

/-! ### The two halves of a dispatch -/

/-- A dispatch past an open transmit gate runs the bound step (R180). -/
theorem runDisp_tx_bound {s : State} {w : FrameWidth} (hf : s.dfault = none) (hgate : gateOpen .tx s.cr2 s.sr = true)
    (hsel : s.tx.sel = Sel.ofWidth w) :
    ∃ j, runDisp dispFuel (s.atLine .i0) = runDisp (j + 15) (runStep stepFuel (s.atLine (.stepTx w .t0))) := by
  obtain ⟨j, hj⟩ := runDisp_runStep stepFuel 15 (s.atLine (.stepTx w .t0))
  refine ⟨j, (runDisp_to_tx_gate 27 hf).trans ?_⟩
  rw [gateMicro_bound (s := s.atLine (.i2 s.cr2 s.sr)) hgate hsel]
  exact hj

/-- A dispatch at a closed transmit gate goes on to I3 (R181). -/
theorem runDisp_tx_closed {s : State} (hf : s.dfault = none) (hgate : gateOpen .tx s.cr2 s.sr = false) :
    runDisp dispFuel (s.atLine .i0) = runDisp 27 (s.atLine .i3) := by
  refine (runDisp_to_tx_gate 27 hf).trans ?_
  rw [gateMicro_closed _ hgate]
  rfl

/-- A dispatch past an open gate on no bound step stops there with the fault (R185). -/
theorem runDisp_stuck (k : Nat) {s : State} {d : Dir} {e v : Half} (hf : s.dfault = none) (hgate : gateOpen d e v = true) :
    ((s.desc d).sel = .none → runDisp k (gateMicro d e v s) = { s with dfault := some (.nullStep d) }) ∧
      ((s.desc d).sel = .reserved → runDisp k (gateMicro d e v s) = { s with dfault := some (.reservedSel d) }) := by
  refine ⟨fun hsel => ?_, fun hsel => ?_⟩
  · rw [gateMicro_null hgate hsel, State.raiseDisp_of_none _ hf]
    exact runDisp_stopped k rfl
  · rw [gateMicro_reserved hgate hsel, State.raiseDisp_of_none _ hf]
    exact runDisp_stopped k rfl

/-- A dispatch at a closed receive gate returns (R181, R232). -/
theorem runDisp_rx_closed (k : Nat) {s : State} (hf : s.dfault = none) (hgate : gateOpen .rx s.cr2 s.sr = false) :
    runDisp (k + 3) (s.atLine .i3) = s.atLine .idle := by
  rw [runDisp_to_rx_gate k hf, gateMicro_closed _ hgate]
  exact runDisp_idle k rfl

/-- A dispatch past an open receive gate runs the bound step and returns with it, or stops with it (R180). -/
theorem runDisp_rx_bound (j : Nat) {s : State} {w : FrameWidth} (hf : s.dfault = none)
    (hgate : gateOpen .rx s.cr2 s.sr = true) (hsel : s.rx.sel = Sel.ofWidth w) :
    runDisp (j + 15) (s.atLine .i3) = runStep stepFuel (s.atLine (.stepRx w .t0)) := by
  obtain ⟨i, hi⟩ := runDisp_runStep stepFuel j (s.atLine (.stepRx w .t0))
  rw [runDisp_to_rx_gate (j + 12) hf, gateMicro_bound (s := s.atLine (.i5 s.cr2 s.sr)) hgate hsel, Nat.add_comm j 12]
  refine hi.trans ?_
  cases hu : (runStep stepFuel (s.atLine (.stepRx w .t0))).dfault with
  | some f => exact runDisp_stopped _ (by rw [hu]; rfl)
  | none => exact runDisp_idle _ (runStep_rx_returns hf hu)

/-- A dispatch where it may start runs from I0 (R230 (b)). -/
theorem exec_irqDispatch {s : State} (hb : s.dispMayStart = true) :
    exec .irqDispatch s = .next (runDisp dispFuel (s.atLine .i0)) :=
  if_pos hb

/-! ### Whole dispatches -/

/-- Settles O38: both gates are tested on registers that nothing has written, and the return restores dph. -/
theorem closedGatesChangeNothing : Obligations.ClosedGatesChangeNothing := by
  intro s hb htx hrx
  obtain ⟨hdph, hf, -⟩ := s.dispMayStart_iff.1 hb
  rw [exec_irqDispatch hb, runDisp_tx_closed hf htx, runDisp_rx_closed 24 hf hrx, State.atLine_self hdph]

/-- The receive half of a dispatch on what the transmit half leaves (R183, R184, R185). -/
theorem runDisp_rx_half (j : Nat) {m : State} (hf : m.dfault = none) (hi3 : m.dph = .i3) :
    (gateOpen .rx m.cr2 m.sr = false → runDisp (j + 15) m = m.atLine .idle) ∧
    (gateOpen .rx m.cr2 m.sr = true →
      (∀ w, m.rx.sel = Sel.ofWidth w → runDisp (j + 15) m = runStep stepFuel (m.atLine (.stepRx w .t0))) ∧
      (m.rx.sel = .none →
        runDisp (j + 15) m = { m with dph := .i5 m.cr2 m.sr, dfault := some (.nullStep .rx) }) ∧
      (m.rx.sel = .reserved →
        runDisp (j + 15) m = { m with dph := .i5 m.cr2 m.sr, dfault := some (.reservedSel .rx) })) := by
  have hgate := runDisp_to_rx_gate (j + 12) hf
  rw [← State.atLine_self hi3]
  refine ⟨fun hg => runDisp_rx_closed (j + 12) hf hg, fun hg => ⟨fun w hsel => runDisp_rx_bound j hf hg hsel, ?_⟩⟩
  have hstuck := runDisp_stuck (j + 12) (s := m.atLine (.i5 m.cr2 m.sr)) (d := .rx) hf hg
  exact ⟨fun hsel => hgate.trans (hstuck.1 hsel), fun hsel => hgate.trans (hstuck.2 hsel)⟩

/-- The transmit half of a dispatch: it leaves m at I3, or stopped (R180, R231). -/
theorem exec_irqDispatch_tx_half {s m : State} (hb : s.dispMayStart = true)
    (hm : (gateOpen .tx s.cr2 s.sr = false ∧ m = { s with dph := .i3 }) ∨
      (gateOpen .tx s.cr2 s.sr = true ∧ ∃ w, s.tx.sel = Sel.ofWidth w ∧
        beginStep (.stepTx w .t0) (s.atLine (.stepTx w .t0)) = .next m)) :
    (m.dfault = none → m.dph = .i3) ∧ ∃ j, exec .irqDispatch s = .next (runDisp (j + 15) m) := by
  obtain ⟨-, hf, -⟩ := s.dispMayStart_iff.1 hb
  rcases hm with ⟨hgate, rfl⟩ | ⟨hgate, w, hsel, hstep⟩
  · exact ⟨fun _ => rfl, 12, by rw [exec_irqDispatch hb, runDisp_tx_closed hf hgate]; rfl⟩
  · cases (beginStep_at (s := s.atLine (.stepTx w .t0)) rfl hf).symm.trans hstep
    obtain ⟨j, hj⟩ := runDisp_tx_bound hf hgate hsel
    exact ⟨runStep_tx_returns hf, j, by rw [exec_irqDispatch hb, hj]; rfl⟩

/-- Settles O39: the run reaches the state m with lines to spare for the receive half, and goes on from it. -/
theorem dispatchServesTxThenRx : Obligations.DispatchServesTxThenRx := by
  intro s m hb hm
  have hm' : (gateOpen .tx s.cr2 s.sr = false ∧ m = { s with dph := .i3 }) ∨
      (gateOpen .tx s.cr2 s.sr = true ∧ ∃ w, s.tx.sel = Sel.ofWidth w ∧
        beginStep (.stepTx w .t0) (s.atLine (.stepTx w .t0)) = .next m) := by
    rcases hm with h | ⟨hgate, hsel, h⟩ | ⟨hgate, hsel, h⟩
    · exact .inl h
    · exact .inr ⟨hgate, .w8, hsel, h⟩
    · exact .inr ⟨hgate, .w16, hsel, h⟩
  obtain ⟨hi3, j, hexec⟩ := exec_irqDispatch_tx_half hb hm'
  refine ⟨fun hfault => ?_, fun hf => ?_⟩
  · rw [hexec, runDisp_stopped _ (Option.isSome_iff_ne_none.2 hfault)]
  · obtain ⟨hclosed, hopen⟩ := runDisp_rx_half j hf (hi3 hf)
    refine ⟨fun hg => ?_, fun hg hsel => ?_, fun hg hsel => ?_, fun hg hsel => ?_, fun hg hsel => ?_⟩
    · rw [hexec, hclosed hg]
      rfl
    · rw [hexec, (hopen hg).1 .w8 hsel]
      exact (beginStep_at (s := m.atLine (.stepRx .w8 .t0)) rfl hf).symm
    · rw [hexec, (hopen hg).1 .w16 hsel]
      exact (beginStep_at (s := m.atLine (.stepRx .w16 .t0)) rfl hf).symm
    · rw [hexec, (hopen hg).2.1 hsel]
    · rw [hexec, (hopen hg).2.2 hsel]

/-- A turn of DISP that no fault has stopped is its next line. -/
theorem runTurn_dispMicro {s : State} (hf : s.dfault = none) : runTurn .dispMicro s = .next (dispMicro s) := by
  show dispTurn .dispMicro s = _
  rw [dispTurn, hf]

/-- Settles O40: the fault is raised at the gate, as a line and in the run of the whole dispatch. -/
theorem nullStepStops : Obligations.NullStepStops := by
  refine ⟨fun s e v hf => ⟨fun hdph hgate => ?_, fun hdph hgate => ?_⟩, fun s hb => ?_⟩
  · have hline : dispMicro s = gateMicro .tx e v s := by rw [dispMicro, hdph]
    obtain ⟨hnull, hres⟩ := runDisp_stuck 0 (s := s) (d := .tx) hf hgate
    rw [runTurn_dispMicro hf, hline]
    exact ⟨fun hsel => congrArg _ (hnull hsel), fun hsel => congrArg _ (hres hsel)⟩
  · have hline : dispMicro s = gateMicro .rx e v s := by rw [dispMicro, hdph]
    obtain ⟨hnull, hres⟩ := runDisp_stuck 0 (s := s) (d := .rx) hf hgate
    rw [runTurn_dispMicro hf, hline]
    exact ⟨fun hsel => congrArg _ (hnull hsel), fun hsel => congrArg _ (hres hsel)⟩
  · obtain ⟨-, hf, -⟩ := s.dispMayStart_iff.1 hb
    rw [exec_irqDispatch hb]
    refine ⟨fun hgate => ?_, fun htx hrx => ?_⟩
    · rw [show dispFuel = 27 + 3 from rfl, runDisp_to_tx_gate 27 hf]
      obtain ⟨hnull, hres⟩ := runDisp_stuck 27 (s := s.atLine (.i2 s.cr2 s.sr)) (d := .tx) hf hgate
      exact ⟨fun hsel => congrArg _ (hnull hsel), fun hsel => congrArg _ (hres hsel)⟩
    · rw [runDisp_tx_closed hf htx]
      obtain ⟨-, hnull, hres⟩ := (runDisp_rx_half 12 (m := s.atLine .i3) hf rfl).2 hrx
      exact ⟨fun hsel => congrArg _ (hnull hsel), fun hsel => congrArg _ (hres hsel)⟩

/-- From I3 a dispatch that no fault stops returns (R231). -/
theorem runDisp_rx_half_returns (j : Nat) {m : State} (hf : m.dfault = none) (hi3 : m.dph = .i3)
    (h : (runDisp (j + 15) m).dfault = none) : (runDisp (j + 15) m).dph = .idle := by
  obtain ⟨hclosed, hopen⟩ := runDisp_rx_half j hf hi3
  cases hgate : gateOpen .rx m.cr2 m.sr with
  | false => rw [hclosed hgate]; rfl
  | true =>
    obtain ⟨hbound, hnull, hres⟩ := hopen hgate
    cases hsel : m.rx.sel with
    | w8 => rw [hbound .w8 hsel] at h ⊢; exact runStep_rx_returns hf h
    | w16 => rw [hbound .w16 hsel] at h ⊢; exact runStep_rx_returns hf h
    | none => rw [hnull hsel] at h; cases h
    | reserved => rw [hres hsel] at h; cases h

/-- A dispatch that no fault stops has returned (R231). -/
theorem runDisp_returns {s : State} (hf : s.dfault = none) (h : (runDisp dispFuel (s.atLine .i0)).dfault = none) :
    (runDisp dispFuel (s.atLine .i0)).dph = .idle := by
  have from_m {m : State} {j : Nat} (hrun : runDisp dispFuel (s.atLine .i0) = runDisp (j + 15) m)
      (hi3 : m.dfault = none → m.dph = .i3) : (runDisp dispFuel (s.atLine .i0)).dph = .idle := by
    rw [hrun] at h ⊢
    cases hm : m.dfault with
    | none => exact runDisp_rx_half_returns j hm (hi3 hm) h
    | some f =>
      rw [runDisp_stopped _ (by rw [hm]; rfl), hm] at h
      cases h
  cases hgate : gateOpen .tx s.cr2 s.sr with
  | false => exact from_m (m := s.atLine .i3) (j := 12) (runDisp_tx_closed hf hgate) (fun _ => rfl)
  | true =>
    have hrun : runDisp dispFuel (s.atLine .i0) = _ := runDisp_to_tx_gate 27 hf
    obtain ⟨hnull, hres⟩ := runDisp_stuck 27 (s := s.atLine (.i2 s.cr2 s.sr)) (d := .tx) hf hgate
    cases hsel : s.tx.sel with
    | w8 =>
      obtain ⟨j, hj⟩ := runDisp_tx_bound (w := .w8) hf hgate hsel
      exact from_m hj (runStep_tx_returns hf)
    | w16 =>
      obtain ⟨j, hj⟩ := runDisp_tx_bound (w := .w16) hf hgate hsel
      exact from_m hj (runStep_tx_returns hf)
    | none => rw [hrun, hnull hsel] at h; cases h
    | reserved => rw [hrun, hres hsel] at h; cases h

/-- Settles O41: the lines of a dispatch leave HOST's phase, and there are enough of them to return. -/
theorem dispatchRunsToCompletion : Obligations.DispatchRunsToCompletion := by
  intro s hb
  obtain ⟨-, hf, -⟩ := s.dispMayStart_iff.1 hb
  refine ⟨_, exec_irqDispatch hb, ?_, runDisp_returns hf⟩
  exact runDisp_keeps (P := fun t => t.hph = s.hph) (fun t ht _ => (dispMicro_hph t).trans ht) dispFuel rfl

/-- DISP starts a dispatch where it may (R230 (b)). -/
theorem runTurn_dispStart {s : State} (hb : s.dispMayStart = true) : runTurn .dispStart s = .next (s.atLine .i0) := by
  show dispTurn .dispStart s = _
  simp only [dispTurn, (s.dispMayStart_iff.1 hb).2.1, hb, if_true]
  rfl

/-- Settles O42: starting a dispatch writes dph, and a closed receive gate is the return. -/
theorem entryAndReturnChangeOnlyDph : Obligations.EntryAndReturnChangeOnlyDph := by
  refine ⟨fun s hb => ?_, fun s e v hdph hf hgate => ?_⟩
  · exact runTurn_dispStart hb
  · have hline : dispMicro s = gateMicro .rx e v s := by rw [dispMicro, hdph]
    rw [runTurn_dispMicro hf, hline, gateMicro_closed s hgate]
    rfl

/-! ### The hazard of R258 -/

/-- HOST at S7 writes the CR2 value it read at S6, whatever CR2 holds by then (R132, R258). -/
theorem hostMicro_s7 {s : State} {d : Dir} {buf : Addr} {len : Len} {c2 : Half}
    (hph : s.hph = .submit d buf len (.s7 c2)) :
    hostMicro s = .next ((s.rmwSetWrite .cr2 (enableBit d) c2).respond respAccepted) := by
  rw [hostMicro, hph]
  rfl

/-- Settles O57: S7 keeps the stale enable bit, the direction is closed, and the open gate finds no step bound. -/
theorem staleArmingReachesNullStep : Obligations.StaleArmingReachesNullStep := by
  intro s buf len c2 hdph hf
  have start (d : Dir) :
      ((s.rmwSetWrite .cr2 (enableBit d) c2).respond respAccepted).dispMayStart = true :=
    (State.dispMayStart_iff _).2 ⟨hdph, hf, fun _ => rfl⟩
  refine ⟨fun hph hclosed hstale hrxne htxe => ?_, fun hph hclosed hstale htxe => ?_⟩
  · have harmed : (setBit c2 7).getLsbD 6 = true := by
      rw [getLsbD_setBit c2 7 6 (by decide), hstale]
      rfl
    have htx : gateOpen .tx (setBit c2 7) s.sr = false := by
      rw [gateOpen, show s.sr.getLsbD (flagBit .tx) = false from htxe, Bool.and_false]
    have hrx : gateOpen .rx (setBit c2 7) s.sr = true := (gateOpen_iff .rx _ _).2 ⟨harmed, hrxne⟩
    exact ⟨_, _, hostMicro_s7 hph, harmed, hclosed,
      ((nullStepStops.2 _ (start .tx)).2 htx hrx).1 (congrArg Desc.sel hclosed), rfl⟩
  · have harmed : (setBit c2 6).getLsbD 7 = true := by
      rw [getLsbD_setBit c2 6 7 (by decide), hstale]
      rfl
    have htx : gateOpen .tx (setBit c2 6) s.sr = true := (gateOpen_iff .tx _ _).2 ⟨harmed, htxe⟩
    exact ⟨_, _, hostMicro_s7 hph, harmed, hclosed,
      ((nullStepStops.2 _ (start .rx)).1 htx).1 (congrArg Desc.sel hclosed), rfl⟩

end Sys2Proof.Machine
end

section
/-! PROOFS. Agents, HOST's script, and whole operations as their lines (R10, R111, R222, R230, R231). -/

namespace Sys2Proof.Machine

open Sys2Proof

/-! ### Turns that are held or stopped -/

/-- A turn of HOST while a dispatch is in progress is held, whichever turn it is (R230 (c)). -/
theorem hostTurn_held (t : Turn) {s : State} (hd : s.dph ≠ .idle) (hf : s.hfault = none) : hostTurn t s = .next s := by
  have hb : s.hostMayBegin = false := Bool.eq_false_iff.2 fun h => hd (s.hostMayBegin_iff.1 h).2.1
  unfold hostTurn
  rw [hf]
  cases t <;> simp [hb, hd]

/-- A turn of a stopped HOST answers its fault, whichever turn it is (R222). -/
theorem hostTurn_stopped (t : Turn) {s : State} {f : Fault} (hf : s.hfault = some f) : hostTurn t s = .fault f := by
  unfold hostTurn
  rw [hf]

/-- A turn of a stopped DISP answers its fault, whichever turn it is (R222, R231). -/
theorem dispTurn_stopped (t : Turn) {s : State} {f : Fault} (hf : s.dfault = some f) : dispTurn t s = .fault f := by
  simp only [dispTurn, hf]

/-- A turn that runs no whole operation is the agent's own. -/
theorem runTurn_of_fetch_none {t : Turn} {s : State} (h : fetchTurn t s = none) : runTurn t s = otherTurn t s := by
  rw [runTurn, h]

/-- A turn of DISP that may not start a dispatch leaves the state as it is (R80). -/
theorem dispTurn_idle (t : Turn) {s : State} (hd : s.dph = .idle) (hf : s.dfault = none) (hb : s.dispMayStart = false) :
    dispTurn t s = .next s := by
  cases t <;> simp [dispTurn, hf, hb, dispMicro, hd]

/-- Settles O43: HOST may not begin and takes no line while dph is not IDLE; DISP may not start while hph is not. -/
theorem contextsExcludeEachOther : Obligations.ContextsExcludeEachOther := by
  intro s w
  refine ⟨fun hd hf => ?_, fun hatomic hh hd hf => ?_⟩
  · have hb : s.hostMayBegin = false := Bool.eq_false_iff.2 fun h => hd (s.hostMayBegin_iff.1 h).2.1
    have hop : fetchTurn (.hostOp w) s = none := if_neg (by simp [hb])
    exact ⟨hostTurn_held .hostMicro hd hf, hostTurn_held (.hostStart w) hd hf,
      (runTurn_of_fetch_none hop).trans (hostTurn_held (.hostOp w) hd hf), hostTurn_held .scriptOp hd hf,
      hostTurn_held .scriptMicro hd hf⟩
  · have hb : s.dispMayStart = false := Bool.eq_false_iff.2 fun h => hh ((s.dispMayStart_iff.1 h).2.2 hatomic)
    have hop : fetchTurn .dispOp s = none := by simp [fetchTurn, State.dispWord, hf, hd, hb]
    exact ⟨dispTurn_idle .dispStart hd hf hb, dispTurn_idle .dispMicro hd hf hb,
      (runTurn_of_fetch_none hop).trans (dispTurn_idle .dispOp hd hf hb)⟩

/-- Settles O44: a stopped agent fetches no operation, and its turn answers the fault. -/
theorem stoppedAgentTakesNoStep : Obligations.StoppedAgentTakesNoStep := by
  intro s f w a
  refine ⟨fun hf => ?_, fun hf => ?_, rfl⟩
  · have hb : s.hostMayBegin = false := Bool.eq_false_iff.2 fun h => by
      rw [(s.hostMayBegin_iff.1 h).2.2] at hf
      cases hf
    have hop : fetchTurn (.hostOp w) s = none := if_neg (by simp [hb])
    exact ⟨hostTurn_stopped .hostMicro hf, hostTurn_stopped (.hostStart w) hf,
      (runTurn_of_fetch_none hop).trans (hostTurn_stopped (.hostOp w) hf), hostTurn_stopped .scriptOp hf,
      hostTurn_stopped .scriptMicro hf⟩
  · have hop : fetchTurn .dispOp s = none := if_neg (by simp [hf])
    exact ⟨dispTurn_stopped .dispMicro hf, dispTurn_stopped .dispStart hf,
      (runTurn_of_fetch_none hop).trans (dispTurn_stopped .dispOp hf)⟩

/-! ### The script -/

/-- The word of GET_STATE is its encoding (R102). -/
theorem decode_getStateWord (d : Dir) : decode (.c (getStateWord d)) = .ok (.getState d) := by
  cases d <;> decide

/-- A poll answers 0 exactly when the direction is FREE (R105, R142). -/
theorem respBusState_eq_free_iff (b : BusState) : respBusState b = respBusState .free ↔ b = .free := by
  cases b <;> decide

/-- A poll of `WAIT_FREE d` is GET_STATE d, and only the answer FREE ends the wait (R111). -/
theorem runScript_waitFree {s : State} {d : Dir} {rest : List ScriptItem} (hb : s.hostMayBegin = true)
    (hs : s.script = .waitFree d :: rest) :
    runScript s = .next (if (s.desc d).state = .free then { s with resp := some 0, script := rest }
      else { s with resp := some 1 }) := by
  have hpoll : runWord (.c (getStateWord d)) s = .next { s with resp := some (respBusState (s.desc d).state) } := by
    rw [runWord, decode_getStateWord]
    exact exec_getState hb
  rw [runScript, hs]
  simp only [hpoll, Option.some.injEq, respBusState_eq_free_iff]
  cases (s.desc d).state <;> simp [respBusState, hs]

/-- The next move on with the script, where HOST is between commands, starts its next command. -/
theorem runTurn_scriptMicro_start {s : State} (hb : s.hostMayBegin = true) : runTurn .scriptMicro s = startScript s := by
  obtain ⟨hh, hd, hf⟩ := s.hostMayBegin_iff.1 hb
  rw [runTurn_scriptMicro hf hd, scriptMicro, if_pos hh]

/-- Inside a command that does not end a wait, a move on with the script is the command's next line. -/
theorem scriptMicro_inside {s : State} (hh : s.hph ≠ .idle) (hg : ∀ d, s.hph ≠ .getState d (.g1 .free)) :
    scriptMicro s = hostMicro s := by
  rw [scriptMicro, if_neg hh]
  congr 1
  unfold State.endWait
  split
  · next d _ _ h _ => exact absurd h (hg d)
  · rfl

/-- Settles O51: each clause is the branch of the script's next item, or of HOST's line at G1. -/
theorem scriptRunsPseudoOperations : Obligations.ScriptRunsPseudoOperations := by
  refine ⟨?command, ?poll, ?answer, ?inside, ?transfer⟩
  case command =>
    intro s w rest hb hs
    have hb' : ({ s with script := rest } : State).hostMayBegin = true := hb
    rw [runTurn_scriptOp hb, runTurn_scriptMicro_start hb, runTurn_hostOp w hb', runTurn_hostStart w hb', runScript,
      startScript, hs]
    exact ⟨rfl, rfl⟩
  case poll =>
    intro s d rest hb hs
    rw [runTurn_scriptOp hb, runScript_waitFree hb hs]
    refine ⟨fun hfree => by rw [if_pos hfree], fun hbusy => by rw [hbusy, if_neg (by decide)], ?_⟩
    rw [runTurn_scriptMicro_start hb, startScript, hs]
    simp only [startCommand, decode_getStateWord, hostEntry, hs]
  case answer =>
    intro s d b rest hd hf hh hs
    rw [runTurn_scriptMicro hf hd, scriptMicro, if_neg (by simp [hh]), State.endWait, hh, hs]
    cases b <;> simp [hostMicro, hh, hs, getMicro, State.respond]
  case inside =>
    intro s hh hg
    have hend := scriptMicro_inside hh hg
    show hostTurn .scriptMicro s = hostTurn .hostMicro s
    unfold hostTurn
    rw [hend]
  case transfer =>
    intro bufTx bufRx len
    exact ⟨_, _, rfl, decodeC_submitRx bufRx len, decodeC_submitTx bufTx len⟩

end Sys2Proof.Machine
end

section
/-! PROOFS. Whole operations are their lines (R10, R111, R231). -/

namespace Sys2Proof.Machine

open Sys2Proof

/-! ### No line reads or writes the schedule -/

/-- The state with another schedule. -/
def State.withSched (s : State) (q : List Turn) : State := { s with sched := q }

/-- A choice between two states, both with the same other schedule. -/
theorem State.ite_withSched (c : Prop) [Decidable c] (s t : State) (q : List Turn) :
    (if c then s.withSched q else t.withSched q) = (if c then s else t).withSched q :=
  (apply_ite (State.withSched · q) c s t).symm

section
variable (s : State) (q : List Turn)

theorem State.desc_withSched (d : Dir) : (s.withSched q).desc d = s.desc d := by
  cases d <;> rfl

theorem State.raiseHost_withSched (f : Fault) : (s.withSched q).raiseHost f = (s.raiseHost f).withSched q := by
  rw [State.raiseHost_eq, State.raiseHost_eq]
  rfl

theorem State.raiseDisp_withSched (f : Fault) : (s.withSched q).raiseDisp f = (s.raiseDisp f).withSched q := by
  rw [State.raiseDisp_eq, State.raiseDisp_eq]
  rfl

theorem gateMicro_withSched (d : Dir) (e v : Half) :
    gateMicro d e v (s.withSched q) = (gateMicro d e v s).withSched q := by
  unfold gateMicro
  rw [State.desc_withSched]
  cases gateOpen d e v with
  | false => rfl
  | true =>
    cases selectStep d (s.desc d).sel with
    | ok p => rfl
    | error f => exact s.raiseDisp_withSched q f

theorem tailMicro_withSched (d : Dir) : tailMicro d (s.withSched q) = (tailMicro d s).withSched q := by
  unfold tailMicro
  rw [State.desc_withSched, ← State.ite_withSched]
  rfl

theorem stepTxMicro_withSched (w : FrameWidth) (ln : TxLine) :
    stepTxMicro w ln (s.withSched q) = (stepTxMicro w ln s).withSched q := by
  cases ln with
  | t0 =>
    cases hacc : s.stepAccessFault .tx w s.tx.cur with
    | some f =>
      rw [stepTxMicro_t0_fault hacc, stepTxMicro_t0_fault (s := s.withSched q) hacc, State.raiseDisp_withSched]
    | none =>
      cases hsp : s.splits w s.tx.cur with
      | true =>
        rw [stepTxMicro_t0_split hacc hsp, stepTxMicro_t0_split (s := s.withSched q) hacc hsp]
        rfl
      | false =>
        rw [stepTxMicro_t0_whole hacc hsp, stepTxMicro_t0_whole (s := s.withSched q) hacc hsp]
        cases w <;> rfl
  | t4 => exact tailMicro_withSched s q .tx
  | t0b first => rfl
  | t1 x => rfl
  | t2 => rfl
  | t3 => rfl

theorem stepRxMicro_withSched (w : FrameWidth) (ln : RxLine) :
    stepRxMicro w ln (s.withSched q) = (stepRxMicro w ln s).withSched q := by
  cases ln with
  | t1 v =>
    cases hacc : s.stepAccessFault .rx w s.rx.cur with
    | some f =>
      rw [stepRxMicro_t1_fault hacc, stepRxMicro_t1_fault (s := s.withSched q) hacc, State.raiseDisp_withSched]
    | none =>
      cases hsp : s.splits w s.rx.cur with
      | true =>
        rw [stepRxMicro_t1_split hacc hsp, stepRxMicro_t1_split (s := s.withSched q) hacc hsp]
        rfl
      | false =>
        rw [stepRxMicro_t1_whole hacc hsp, stepRxMicro_t1_whole (s := s.withSched q) hacc hsp]
        cases w <;> rfl
  | t4 => exact tailMicro_withSched s q .rx
  | t0 => cases w <;> rfl
  | t1b v => rfl
  | t2 => rfl
  | t3 => rfl

theorem closeMicro_withSched (d : Dir) (ln : CloseLine) :
    closeMicro d ln (s.withSched q) = (closeMicro d ln s).withSched q := by
  cases ln <;> cases d <;> rfl

/-- A line of DISP is the same whatever the schedule. -/
theorem dispMicro_withSched : dispMicro (s.withSched q) = (dispMicro s).withSched q := by
  have hdph : (s.withSched q).dph = s.dph := rfl
  unfold dispMicro
  rw [hdph]
  cases s.dph with
  | i2 e v => exact gateMicro_withSched s q .tx e v
  | i5 e v => exact gateMicro_withSched s q .rx e v
  | stepTx w ln => exact stepTxMicro_withSched s q w ln
  | stepRx w ln => exact stepRxMicro_withSched s q w ln
  | close d ln => exact closeMicro_withSched s q d ln
  | idle => rfl
  | i0 => rfl
  | i1 e => rfl
  | i3 => rfl
  | i4 e => rfl

theorem submitMicro_withSched (d : Dir) (buf : Addr) (len : Len) (ln : SubmitLine) :
    submitMicro d buf len ln (s.withSched q) = (submitMicro d buf len ln s).withSched q := by
  cases ln with
  | s0 =>
    simp only [submitMicro, State.desc_withSched]
    cases (s.desc d).state with
    | busy => rfl
    | free =>
      simp only [← State.ite_withSched]
      rfl
  | s0b =>
    simp only [submitMicro, ← State.ite_withSched]
    rfl
  | s1 => cases d <;> rfl
  | s2 => cases d <;> rfl
  | s3 => cases d <;> rfl
  | s4 => rfl
  | s5 c1 => cases d <;> rfl
  | s6 => rfl
  | s7 c2 => rfl

theorem blkTxMicro_withSched (buf : Addr) (len : Len) (ln : BlkLine) :
    blkTxMicro buf len ln (s.withSched q) = (blkTxMicro buf len ln s).withSched q := by
  cases ln with
  | b1 p n =>
    simp only [blkTxMicro, ← State.ite_withSched]
    rfl
  | b2 p n =>
    simp only [blkTxMicro, ← State.ite_withSched]
    rfl
  | b4 p n w =>
    have hacc : (s.withSched q).blkAccessFault .tx w p = s.blkAccessFault .tx w p := rfl
    simp only [blkTxMicro, hacc]
    cases s.blkAccessFault .tx w p with
    | some f => exact s.raiseHost_withSched q f
    | none =>
      simp only [← State.ite_withSched]
      cases w <;> rfl
  | b7 =>
    simp only [blkTxMicro, ← State.ite_withSched]
    rfl
  | b0 => rfl
  | b3 p n => rfl
  | b4b p n w first => rfl
  | b5 p n w x => rfl
  | b5b p n w v => rfl
  | b6 p n w => rfl
  | b8 => rfl

theorem blkRxMicro_withSched (buf : Addr) (len : Len) (ln : BlkLine) :
    blkRxMicro buf len ln (s.withSched q) = (blkRxMicro buf len ln s).withSched q := by
  cases ln with
  | b1 p n =>
    simp only [blkRxMicro, ← State.ite_withSched]
    rfl
  | b2 p n =>
    simp only [blkRxMicro, ← State.ite_withSched]
    rfl
  | b5 p n w v =>
    have hacc : (s.withSched q).blkAccessFault .rx w p = s.blkAccessFault .rx w p := rfl
    simp only [blkRxMicro, hacc]
    cases s.blkAccessFault .rx w p with
    | some f => exact s.raiseHost_withSched q f
    | none =>
      simp only [← State.ite_withSched]
      cases w <;> rfl
  | b4 p n w => cases w <;> rfl
  | b0 => rfl
  | b3 p n => rfl
  | b4b p n w first => rfl
  | b5b p n w v => rfl
  | b6 p n w => rfl
  | b7 => rfl
  | b8 => rfl

theorem getMicro_withSched (d : Dir) (ln : GetLine) :
    getMicro d ln (s.withSched q) = (getMicro d ln s).withSched q := by
  cases ln <;> cases d <;> rfl

theorem flagMicro_withSched (m : Half) (ln : FlagLine) :
    flagMicro m ln (s.withSched q) = (flagMicro m ln s).withSched q := by
  cases ln <;> rfl

theorem blkMicro_withSched (d : Dir) (buf : Addr) (len : Len) (ln : BlkLine) :
    blkMicro d buf len ln (s.withSched q) = (blkMicro d buf len ln s).withSched q := by
  cases d with
  | tx => exact blkTxMicro_withSched s q buf len ln
  | rx => exact blkRxMicro_withSched s q buf len ln

end

/-- A line of INIT that is not refused is the same whatever the schedule. -/
theorem initMicro_withSched {s t : State} {c : Cfg} {ln : InitLine} (q : List Turn) (h : initMicro c ln s = .next t) :
    initMicro c ln (s.withSched q) = .next (t.withSched q) := by
  cases ln with
  | n1 => cases h; rfl
  | n0 =>
    by_cases hbusy : s.tx.state = .busy ∨ s.rx.state = .busy
    · cases (if_pos hbusy).symm.trans h
    · cases (if_neg hbusy).symm.trans h
      exact if_neg hbusy

/-- A line of HOST is the same whatever the schedule. -/
theorem hostMicro_withSched {s t : State} (q : List Turn) (h : hostMicro s = .next t) :
    hostMicro (s.withSched q) = .next (t.withSched q) := by
  have hhph : (s.withSched q).hph = s.hph := rfl
  unfold hostMicro at h ⊢
  rw [hhph]
  cases hph : s.hph with
  | init c ln => rw [hph] at h; exact initMicro_withSched q h
  | idle => rw [hph] at h; cases h; rfl
  | submit d buf len ln => rw [hph] at h; cases h; exact congrArg _ (submitMicro_withSched s q d buf len ln)
  | flag m ln => rw [hph] at h; cases h; exact congrArg _ (flagMicro_withSched s q m ln)
  | getState d ln => rw [hph] at h; cases h; exact congrArg _ (getMicro_withSched s q d ln)
  | blk d buf len ln => rw [hph] at h; cases h; exact congrArg _ (blkMicro_withSched s q d buf len ln)

/-- A line of DISP leaves the schedule. -/
theorem dispMicro_sched (s : State) : (dispMicro s).sched = s.sched :=
  have h : dispMicro s = (dispMicro s).withSched s.sched := dispMicro_withSched s s.sched
  (congrArg State.sched h :)

/-- A line of HOST leaves the schedule. -/
theorem hostMicro_sched {s t : State} (h : hostMicro s = .next t) : t.sched = s.sched :=
  have h' : hostMicro s = .next (t.withSched s.sched) := hostMicro_withSched s.sched h
  (congrArg State.sched (Host.Outcome.next.inj (Eq.trans (b := hostMicro s) h.symm h')) :)

/-! ### Runs of the machine -/

/-- A run of the machine takes the first turn of its schedule first. -/
theorem run_turn (k : Nat) {s t : State} {tn : Turn} {q : List Turn} (h : runTurn tn (s.withSched q) = .next t) :
    Host.Core.run core (k + 1) (s.withSched (tn :: q)) = Host.Core.run core k t := by
  have hstep : core.step (s.withSched (tn :: q)) = .next t := (step_of_sched rfl).trans h
  simp only [Host.Core.run, hstep]

/-- A turn of DISP is its next line, whatever the schedule. -/
theorem runTurn_dispMicro_withSched {s : State} (q : List Turn) (hf : s.dfault = none) :
    runTurn .dispMicro (s.withSched q) = .next ((dispMicro s).withSched q) := by
  rw [← dispMicro_withSched]
  exact runTurn_dispMicro (s := s.withSched q) hf

/-- A run of a dispatch is a run of the machine on turns of DISP (R231). -/
theorem run_dispMicro (k : Nat) (s : State) :
    ∃ n, Host.Core.run core n (s.withSched (List.replicate n .dispMicro ++ s.sched)) = .next (runDisp k s) := by
  induction k generalizing s with
  | zero => exact ⟨0, rfl⟩
  | succ k ih =>
    rw [runDisp]
    split
    · exact ⟨0, rfl⟩
    · next hrun =>
      have hf : s.dfault = none := by simpa using fun e => hrun (.inr e)
      obtain ⟨n, hn⟩ := ih (dispMicro s)
      rw [dispMicro_sched] at hn
      refine ⟨n + 1, ?_⟩
      rw [← hn]
      exact run_turn n (runTurn_dispMicro_withSched _ hf)

/-- A turn of HOST inside a command is its next line. -/
theorem runTurn_hostMicro {s : State} (hf : s.hfault = none) (hd : s.dph = .idle) :
    runTurn .hostMicro s = hostMicro s := by
  show hostTurn .hostMicro s = _
  unfold hostTurn
  rw [hf]
  exact if_pos hd

/-- A turn of HOST inside a command is its next line, whatever the schedule. -/
theorem runTurn_hostMicro_withSched {s t : State} (q : List Turn) (hf : s.hfault = none) (hd : s.dph = .idle)
    (h : hostMicro s = .next t) : runTurn .hostMicro (s.withSched q) = .next (t.withSched q) := by
  rw [← hostMicro_withSched q h]
  exact runTurn_hostMicro (s := s.withSched q) hf hd

/-- A run of a host command is a run of the machine on turns of HOST (R10). -/
theorem run_hostMicro (k : Nat) {s t : State} (hd : s.dph = .idle) (h : runHost k s = .next t) :
    ∃ n, Host.Core.run core n (s.withSched (List.replicate n .hostMicro ++ s.sched)) = .next t := by
  induction k generalizing s with
  | zero => cases h; exact ⟨0, rfl⟩
  | succ k ih =>
    rw [runHost] at h
    split at h
    · cases h; exact ⟨0, rfl⟩
    · next hrun =>
      have hf : s.hfault = none := by simpa using fun e => hrun (.inr e)
      cases hm : hostMicro s with
      | fault f => rw [hm] at h; cases h
      | refused r => rw [hm] at h; cases h
      | next u =>
        rw [hm] at h
        obtain ⟨n, hn⟩ := ih ((hostMicro_dph hm).1.trans hd) h
        rw [hostMicro_sched hm] at hn
        refine ⟨n + 1, ?_⟩
        rw [← hn]
        exact run_turn n (runTurn_hostMicro_withSched _ hf hd hm)

/-- Settles O53: entry is the first turn, and each further line is a turn of DISP. -/
theorem wholeDispatchIsItsLines : Obligations.WholeDispatchIsItsLines := by
  intro s t rest hb h
  cases (exec_irqDispatch (s := s.withSched rest) hb).symm.trans h
  obtain ⟨n, hn⟩ := run_dispMicro dispFuel ((s.withSched rest).atLine .i0)
  refine ⟨n, ?_⟩
  rw [← hn]
  exact run_turn n (runTurn_dispStart (s := s.withSched (List.replicate n .dispMicro ++ rest)) hb)

/-- A word of a host command decodes to an operation whose meaning is its lines from its first (R41, R101). -/
theorem exec_hostCommand {w : CmdWord} {i : Instr} (hd : decode (.c w) = .ok i) (s : State) :
    exec i s = beginHost (hostEntry i) s := by
  obtain ⟨hwf, hw⟩ := encodeOfDecode (.c w) i hd
  cases i with
  | flagStatus m => exact if_pos hwf
  | init c => rfl
  | submitTx buf len => rfl
  | submitRx buf len => rfl
  | getState d => rfl
  | blkTx buf len => rfl
  | blkRx buf len => rfl
  | _ => cases hw

/-- A turn that starts a command puts HOST at its first line (R41, R230 (d)). -/
theorem runTurn_hostStart_of_ok {s : State} {w : CmdWord} {i : Instr} (hd : decode (.c w) = .ok i)
    (hb : s.hostMayBegin = true) (q : List Turn) :
    runTurn (.hostStart w) (s.withSched q) = .next { s.withSched q with hph := hostEntry i } := by
  rw [runTurn_hostStart w (s := s.withSched q) hb, startCommand, hd]

/-- Settles O52: the start is the first turn, and each further line is a turn of HOST. -/
theorem wholeCommandIsItsLines : Obligations.WholeCommandIsItsLines := by
  intro s t w i rest hb hdec h
  have hrun := (exec_hostCommand hdec (s.withSched rest)).symm.trans h
  rw [beginHost, if_pos (show (s.withSched rest).hostMayBegin = true from hb)] at hrun
  obtain ⟨n, hn⟩ := run_hostMicro hostFuel (s := { s.withSched rest with hph := hostEntry i })
    (s.hostMayBegin_iff.1 hb).2.1 hrun
  refine ⟨n, ?_⟩
  rw [← hn]
  exact run_turn n (runTurn_hostStart_of_ok hdec hb _)

end Sys2Proof.Machine
end

section
/-! PROOFS. A valid transmit ends after exactly as many qualifying dispatches as it has units (R169). -/

namespace Sys2Proof.Machine

open Sys2Proof

/-! ### Rounds: a step of PERIPH, then a dispatch -/

/-- A round of the schedule: a step of PERIPH, then a whole dispatch. -/
def roundOf (a : PeriphAct) : List Turn := [.periph a, .dispOp]

/-- A run of the machine whose first part goes well goes on from there. -/
theorem run_add {j : Nat} (k : Nat) {s t : State} (h : Host.Core.run core j s = .next t) :
    Host.Core.run core (j + k) s = Host.Core.run core k t := by
  induction j generalizing s with
  | zero => cases h; rw [Nat.zero_add]
  | succ j ih =>
    rw [Nat.add_right_comm]
    simp only [Host.Core.run] at h ⊢
    cases hs : core.step s with
    | next u => simp only [hs] at h ⊢; exact ih h
    | fault f => simp only [hs] at h; cases h
    | refused r => simp only [hs] at h; cases h

/-- A turn of DISP where a dispatch may start is a whole dispatch (R108, R230 (b)). -/
theorem runTurn_dispOp {s : State} (hb : s.dispMayStart = true) : runTurn .dispOp s = exec .irqDispatch s := by
  obtain ⟨hdph, hf, -⟩ := s.dispMayStart_iff.1 hb
  have hfetch : fetchTurn .dispOp s = some (.e 1) := by
    rw [fetchTurn_dispOp hf, State.dispWord, hdph]
    exact if_pos hb
  rw [runTurn, hfetch]
  rfl

/-- A round from a state where PERIPH leaves t and a dispatch may start: what the dispatch leaves of t. -/
theorem run_round {s t u : State} {a : PeriphAct} {q : List Turn} (hs : s.sched = roundOf a ++ q)
    (hp : periphStep a (s.withSched (.dispOp :: q)) = t.withSched (.dispOp :: q)) (hb : t.dispMayStart = true)
    (hx : exec .irqDispatch (t.withSched q) = .next u) : Host.Core.run core 2 s = .next u := by
  have hs' : s.withSched (.periph a :: .dispOp :: q) = s := congrArg (fun l => { s with sched := l }) hs.symm
  calc Host.Core.run core 2 s
    _ = Host.Core.run core 2 (s.withSched (.periph a :: .dispOp :: q)) := by rw [hs']
    _ = Host.Core.run core 1 (t.withSched (.dispOp :: q)) := run_turn 1 (congrArg Host.Outcome.next hp)
    _ = Host.Core.run core 0 u := run_turn 0 ((runTurn_dispOp (s := t.withSched q) hb).trans hx)
    _ = .next u := rfl

/-- What each round takes from one count of rounds to the next holds after all of them. -/
theorem run_rounds (as : List PeriphAct) {P : Nat → State → Prop} {s : State} {q : List Turn} (h0 : P 0 s)
    (hs : s.sched = as.flatMap roundOf ++ q)
    (hstep : ∀ k (hk : k < as.length) t r, P k t → t.sched = roundOf as[k] ++ r →
      ∃ u, Host.Core.run core 2 t = .next u ∧ P (k + 1) u ∧ u.sched = r) :
    ∃ t, Host.Core.run core (2 * as.length) s = .next t ∧ P as.length t ∧ t.sched = q := by
  induction as generalizing s P with
  | nil => exact ⟨s, rfl, h0, hs⟩
  | cons a as ih =>
    obtain ⟨u, hrun, hu, hsched⟩ :=
      hstep 0 (Nat.zero_lt_succ _) s (as.flatMap roundOf ++ q) h0 (by rw [hs, List.flatMap_cons, List.append_assoc]; rfl)
    obtain ⟨t, hrun', ht, hq⟩ := ih (P := fun k => P (k + 1)) hu hsched
      (fun k hk => hstep (k + 1) (Nat.succ_lt_succ hk))
    refine ⟨t, ?_, ht, hq⟩
    rw [List.length_cons, Nat.mul_succ, Nat.add_comm, run_add _ hrun, hrun']

/-! ### The cursor and the count, unit by unit -/

/-- The address of the k-th unit of a span. -/
def unitAddr (w : FrameWidth) (a : Addr) (k : Nat) : Addr := a + BitVec.ofNat 32 (k * (unitBytes w).toNat)

theorem unitAddr_zero (w : FrameWidth) (a : Addr) : unitAddr w a 0 = a := by
  simp [unitAddr]

theorem ofNat_unit_succ (w : FrameWidth) (k : Nat) :
    BitVec.ofNat 32 ((k + 1) * (unitBytes w).toNat) = BitVec.ofNat 32 (k * (unitBytes w).toNat) + unitBytes w := by
  rw [Nat.succ_mul, BitVec.ofNat_add, BitVec.ofNat_toNat, BitVec.setWidth_eq]

/-- The next unit is one unit width further (R160). -/
theorem unitAddr_succ (w : FrameWidth) (a : Addr) (k : Nat) : unitAddr w a (k + 1) = unitAddr w a k + unitBytes w := by
  rw [unitAddr, ofNat_unit_succ, ← BitVec.add_assoc, unitAddr]

/-- The count left of l after k units. -/
def unitsLeft (w : FrameWidth) (l : Len) (k : Nat) : Len := l - BitVec.ofNat 32 (k * (unitBytes w).toNat)

theorem unitsLeft_zero (w : FrameWidth) (l : Len) : unitsLeft w l 0 = l := by
  simp [unitsLeft]

/-- The count goes down by one unit width (R160). -/
theorem unitsLeft_succ (w : FrameWidth) (l : Len) (k : Nat) : unitsLeft w l (k + 1) = unitsLeft w l k - unitBytes w := by
  rw [unitsLeft, ofNat_unit_succ, sub_add_eq_sub_sub, unitsLeft]

/-- After k of n units exactly one unit is left where k is n - 1. -/
theorem unitsLeft_eq_unit_iff {w : FrameWidth} {l : Len} {n k : Nat} (hl : l.toNat = n * (unitBytes w).toNat)
    (hk : k < n) : unitsLeft w l k = unitBytes w ↔ k + 1 = n := by
  have hlt := l.isLt
  rw [unitsLeft, ← BitVec.toNat_inj, BitVec.toNat_sub, BitVec.toNat_ofNat]
  cases w <;> simp only [unitBytes, BitVec.toNat_ofNat, BitVec.ofNat_eq_ofNat] at hl ⊢ <;> omega

/-! ### One transmit dispatch -/

/-- What a dispatch that serves transmit alone leaves (R180). -/
def State.txServed (s : State) (w : FrameWidth) : State := ((s.txUnit w).tail .tx w).atLine .idle

/-- More units are left: the cursor and the count move, DISP returns (R160). -/
theorem State.txServed_more {s : State} {w : FrameWidth} (h : s.tx.len ≠ unitBytes w) :
    s.txServed w = ((s.txUnit w).moveOn .tx w).atLine .idle := by
  have htail : (s.txUnit w).tail .tx w = ((s.txUnit w).moveOn .tx w).atLine .i3 := if_neg h
  rw [State.txServed, htail]
  rfl

/-- The last unit: transmit is closed and disarmed (R165). -/
theorem State.txServed_last {s : State} {w : FrameWidth} (h : s.tx.len = unitBytes w) :
    s.txServed w = ((s.txUnit w).release .tx).atLine .idle := by
  have htail : (s.txUnit w).tail .tx w = (s.txUnit w).release .tx := if_pos h
  rw [State.txServed, htail]

theorem State.txServed_sched (s : State) (w : FrameWidth) : (s.txServed w).sched = s.sched := by
  unfold State.txServed State.tail
  split <;> rfl

theorem getLsbD_clrBit_same (v : Half) {k : Nat} (hk : k < 16) : (clrBit v k).getLsbD k = false := by
  simp [getLsbD_clrBit v k k hk]

/-- The gate of a direction is not moved by clearing another bit of each register. -/
theorem gateOpen_clrBit_other {d e : Dir} (h : e ≠ d) (c v : Half) :
    gateOpen e (clrBit c (enableBit d)) v = gateOpen e c v ∧ gateOpen e c (clrBit v (flagBit d)) = gateOpen e c v := by
  have hen := enableBit_ne h
  have hfl : flagBit e ≠ flagBit d := by cases d <;> cases e <;> simp [flagBit, Config.bitTxe, Config.bitRxne] at h ⊢
  simp [gateOpen, getLsbD_clrBit _ _ _ (enableBit_lt e), getLsbD_clrBit _ _ _ (flagBit_lt e), hen, hfl]

/-- A dispatch with the transmit gate open and the receive gate closed serves transmit alone (R180, R181). -/
theorem exec_irqDispatch_tx {s : State} {w : FrameWidth} (hb : s.dispMayStart = true)
    (htx : gateOpen .tx s.cr2 s.sr = true) (hrx : gateOpen .rx s.cr2 s.sr = false) (hsel : s.tx.sel = Sel.ofWidth w)
    (hacc : s.stepAccessFault .tx w s.tx.cur = none) : exec .irqDispatch s = .next (s.txServed w) := by
  obtain ⟨-, hf, -⟩ := s.dispMayStart_iff.1 hb
  obtain ⟨j, hj⟩ := runDisp_tx_bound hf htx hsel
  have hm : ((s.txUnit w).tail .tx w).dfault = none ∧
      gateOpen .rx ((s.txUnit w).tail .tx w).cr2 ((s.txUnit w).tail .tx w).sr = false := by
    have hsr : gateOpen .rx s.cr2 (clrBit s.sr 1) = false := by
      rw [← hrx]
      exact (gateOpen_clrBit_other (d := .tx) (e := .rx) (by decide) _ _).2
    unfold State.tail
    split
    · refine ⟨hf, ?_⟩
      rw [← hsr]
      exact (gateOpen_clrBit_other (d := .tx) (e := .rx) (by decide) _ _).1
    · exact ⟨hf, hsr⟩
  rw [exec_irqDispatch hb, hj, runStep_tx hf hacc, (runDisp_rx_half j hm.1 (State.tail_dph _ .tx w)).1 hm.2]
  rfl

/-! ### The transmit transfer -/

/-- What holds after k of the n units of a transmit that began at s (R169). -/
structure TxProgress (s : State) (w : FrameWidth) (n k : Nat) (t : State) : Prop where
  mayStart : t.dispMayStart = true
  rxGate : gateOpen .rx t.cr2 t.sr = false
  par : t.par = s.par
  mem : t.mem = s.mem
  rx : t.rx = s.rx
  txlog : t.txlog = s.txlog ++ (List.range k).map (fun j => logEntry w (s.readUnit w (unitAddr w s.tx.cur j)))
  more : k < n → t.enabled .tx = true ∧ t.txSpan = s.txSpan ∧
    t.tx = ⟨unitsLeft w s.tx.len k, unitAddr w s.tx.cur k, s.tx.state, s.tx.sel⟩
  done : k = n → t.enabled .tx = false ∧ t.tx = Desc.closed

/-- PERIPH sets TXE and leaves RXNE, in either environment (R203, R204). -/
theorem periphStep_txe (s : State) : ∃ x, periphStep (.txe true) s = { s with sr := x } ∧
    x.getLsbD (flagBit .tx) = true ∧ x.getLsbD (flagBit .rx) = s.sr.getLsbD (flagBit .rx) := by
  cases henv : s.par.env with
  | free =>
    refine ⟨putBit s.sr (flagBit .tx) true, by simp only [periphStep, henv, periphFree]; rfl, ?_, ?_⟩
    · rw [getLsbD_putBit _ _ _ _ (flagBit_lt .tx), if_pos rfl]
    · rw [getLsbD_putBit _ _ _ _ (flagBit_lt .rx), if_neg (by decide)]
  | ref =>
    cases htxe : s.txe with
    | true => exact ⟨s.sr, by simp [periphStep, henv, periphRef, htxe], htxe, rfl⟩
    | false =>
      refine ⟨setBit (setBit s.sr (flagBit .tx)) Config.bitBsy,
        by simp only [periphStep, henv, periphRef, htxe]; rfl, ?_, ?_⟩
      · simp [getLsbD_setBit _ _ _ (flagBit_lt .tx)]
      · rw [getLsbD_setBit _ _ _ (flagBit_lt .rx), getLsbD_setBit _ _ _ (flagBit_lt .rx)]
        rfl

section
variable {s : State} {w : FrameWidth} {n k : Nat}

/-- A unit read in another state with the same memory and byte order is the same. -/
theorem State.readUnit_congr {t : State} (hp : t.par = s.par) (hm : t.mem = s.mem) (w : FrameWidth) (a : Addr) :
    t.readUnit w a = s.readUnit w a := by
  cases w <;> simp only [State.readUnit, State.byteAt, hp, hm]

/-- One round serves the next unit: PERIPH sets TXE, the dispatch finds the transmit gate alone open (R181). -/
theorem TxProgress.round {t : State} {q : List Turn} (h : TxProgress s w n k t) (hk : k < n)
    (hsel : s.tx.sel = Sel.ofWidth w) (hacc : s.stepAccessFault .tx w (unitAddr w s.tx.cur k) = none)
    (hs : t.sched = roundOf (.txe true) ++ q) :
    ∃ x, Host.Core.run core 2 t = .next (({ t with sr := x, sched := q } : State).txServed w) ∧
      gateOpen .rx t.cr2 x = false := by
  obtain ⟨hen, hspan, htx⟩ := h.more hk
  obtain ⟨x, hx, htxe, hrxne⟩ := periphStep_txe (t.withSched (.dispOp :: q))
  have hrx : gateOpen .rx t.cr2 x = false := by
    rw [gateOpen, hrxne]
    exact h.rxGate
  have hfault : t.stepAccessFault .tx w t.tx.cur = none := by
    rw [State.stepAccessFault_congr (s := s) (d := .tx) h.par hspan, htx, hacc]
  have hbound : t.tx.sel = Sel.ofWidth w := by rw [htx, hsel]
  exact ⟨x, run_round (t := { t with sr := x }) hs hx h.mayStart
    (exec_irqDispatch_tx h.mayStart ((gateOpen_iff .tx _ _).2 ⟨hen, htxe⟩) hrx hbound hfault), hrx⟩

/-- What a dispatch leaves of k units done is k + 1 units done (R160, R165). -/
theorem TxProgress.served {t : State} {x : Half} (q : List Turn) (h : TxProgress s w n k t) (hk : k < n)
    (hlen : s.tx.len.toNat = n * (unitBytes w).toNat) (hrx : gateOpen .rx t.cr2 x = false) :
    TxProgress s w n (k + 1) (({ t with sr := x, sched := q } : State).txServed w) := by
  obtain ⟨hen, hspan, htx⟩ := h.more hk
  obtain ⟨-, hf, hatomic⟩ := t.dispMayStart_iff.1 h.mayStart
  have hrx' : gateOpen .rx t.cr2 (clrBit x (flagBit .tx)) = false :=
    (gateOpen_clrBit_other (d := .tx) (e := .rx) (by decide) _ _).2.trans hrx
  have hlog : t.txlog ++ [logEntry w (t.readUnit w t.tx.cur)] =
      s.txlog ++ (List.range (k + 1)).map (fun j => logEntry w (s.readUnit w (unitAddr w s.tx.cur j))) := by
    rw [State.readUnit_congr h.par h.mem, htx, h.txlog, List.range_succ, List.map_append, List.append_assoc]
    rfl
  have hlast : t.tx.len = unitBytes w ↔ k + 1 = n := by
    rw [htx]
    exact unitsLeft_eq_unit_iff hlen hk
  by_cases hn : k + 1 = n
  · rw [State.txServed_last (s := { t with sr := x, sched := q }) (hlast.2 hn)]
    refine ⟨(State.dispMayStart_iff _).2 ⟨rfl, hf, hatomic⟩, ?_, h.par, h.mem, h.rx, hlog, fun hlt => ?_,
      fun _ => ⟨getLsbD_clrBit_same t.cr2 (enableBit_lt .tx), rfl⟩⟩
    · exact (gateOpen_clrBit_other (d := .tx) (e := .rx) (by decide) _ _).1.trans hrx'
    · omega
  · rw [State.txServed_more (s := { t with sr := x, sched := q }) (mt hlast.1 hn)]
    refine ⟨(State.dispMayStart_iff _).2 ⟨rfl, hf, hatomic⟩, hrx', h.par, h.mem, h.rx, hlog,
      fun _ => ⟨hen, hspan, ?_⟩, fun hn' => absurd hn' hn⟩
    rw [unitAddr_succ, unitsLeft_succ]
    show (⟨t.tx.len - unitBytes w, t.tx.cur + unitBytes w, t.tx.state, t.tx.sel⟩ : Desc) = _
    rw [htx]

end

/-- A transmit about to start has done no unit. -/
theorem TxProgress.zero {s : State} {w : FrameWidth} {n : Nat} (q : List Turn) (hb : s.dispMayStart = true)
    (hen : s.enabled .tx = true) (hrx : gateOpen .rx s.cr2 s.sr = false) (hn : 0 < n) :
    TxProgress s w n 0 (s.withSched q) := by
  refine ⟨hb, hrx, rfl, rfl, rfl, (List.append_nil _).symm, fun _ => ⟨hen, rfl, ?_⟩, fun h => absurd h (by omega)⟩
  rw [unitAddr_zero, unitsLeft_zero]
  rfl

/-- Settles O59: each round takes the transmit one unit further, and the n-th unit is the one that closes it. -/
theorem transmitTerminates : Obligations.TransmitTerminates := by
  intro s w n k rest hb hen hrx _ hsel hn hlen hacc hk
  have hsched : (List.replicate k [Turn.periph (.txe true), Turn.dispOp]).flatten =
      (List.replicate k (.txe true)).flatMap roundOf := by
    rw [List.flatMap_def, List.map_replicate]
    rfl
  obtain ⟨t, hrun, ht, hq⟩ := run_rounds (List.replicate k (.txe true)) (P := TxProgress s w n)
    (q := rest) (TxProgress.zero _ hb hen hrx hn) rfl fun j hj t q h hs => by
      rw [List.length_replicate] at hj
      rw [List.getElem_replicate] at hs
      have hjn := Nat.lt_of_lt_of_le hj hk
      obtain ⟨x, hx, hgate⟩ := h.round hjn hsel (hacc j hjn) hs
      exact ⟨_, hx, h.served q hjn hlen hgate, State.txServed_sched _ w⟩
  rw [List.length_replicate] at hrun ht
  obtain ⟨hdph, hf, -⟩ := t.dispMayStart_iff.1 ht.mayStart
  refine ⟨t, ?_, hf, hdph, hq, ht.mem, ht.rx, ht.txlog, fun hlt => ?_, ht.done⟩
  · rw [hsched]
    exact hrun
  · obtain ⟨hen', -, htx⟩ := ht.more hlt
    exact ⟨hen', htx⟩

end Sys2Proof.Machine
end

section
/-! PROOFS. A valid receive ends after exactly as many qualifying dispatches as it has units (R169). -/

namespace Sys2Proof.Machine

open Sys2Proof

/-! ### Where the units of a span lie -/

section
variable {w : FrameWidth} {a x : Addr} {k : Nat}

/-- The offset of the k-th unit from the start of the span. -/
theorem unitAddr_offset (hk : k * (unitBytes w).toNat < 2 ^ 32) :
    (unitAddr w a k - a).toNat = k * (unitBytes w).toNat := by
  rw [unitAddr, add_sub_cancel_left, BitVec.toNat_ofNat, Nat.mod_eq_of_lt hk]

/-- The offset of the second byte of the k-th unit. -/
theorem unitAddr_succ_offset (hk : k * (unitBytes w).toNat + 1 < 2 ^ 32) :
    (unitAddr w a k + 1 - a).toNat = k * (unitBytes w).toNat + 1 := by
  rw [add_sub_right_comm, BitVec.toNat_add, unitAddr_offset (by omega)]
  exact Nat.mod_eq_of_lt hk

/-- The k-th unit stored leaves every byte whose offset is not of that unit. -/
theorem State.byteAt_writeUnit_outside (s : State) (v : Half) (hk : (k + 1) * (unitBytes w).toNat ≤ 2 ^ 32)
    (h : (x - a).toNat < k * (unitBytes w).toNat ∨ (k + 1) * (unitBytes w).toNat ≤ (x - a).toNat) :
    (s.writeUnit w (unitAddr w a k) v).byteAt x = s.byteAt x := by
  have hfirst : x ≠ unitAddr w a k := by
    rintro rfl
    have hpos : 0 < (unitBytes w).toNat := by cases w <;> decide
    rw [Nat.succ_mul] at hk h
    rw [unitAddr_offset (by omega)] at h
    omega
  cases w with
  | w8 => exact State.byteAt_writeUnit8_ne s v hfirst
  | w16 =>
    refine State.byteAt_writeUnit16_ne s v hfirst ?_
    rintro rfl
    simp only [show (unitBytes .w16).toNat = 2 from rfl] at hk h
    rw [unitAddr_succ_offset (by simp only [show (unitBytes .w16).toNat = 2 from rfl]; omega)] at h
    simp only [show (unitBytes .w16).toNat = 2 from rfl] at h
    omega

/-- The k-th unit stored leaves the units before it. -/
theorem State.readUnit_writeUnit_earlier (s : State) (v : Half) {j : Nat} (hj : j < k)
    (hk : (k + 1) * (unitBytes w).toNat ≤ 2 ^ 32) :
    (s.writeUnit w (unitAddr w a k) v).readUnit w (unitAddr w a j) = s.readUnit w (unitAddr w a j) := by
  cases w with
  | w8 =>
    have h : (unitAddr .w8 a j - a).toNat < k * (unitBytes .w8).toNat := by
      rw [unitAddr_offset] <;> simp only [show (unitBytes .w8).toNat = 1 from rfl] at hk ⊢ <;> omega
    rw [State.readUnit, s.byteAt_writeUnit_outside v hk (.inl h), State.readUnit]
  | w16 =>
    have h : (unitAddr .w16 a j - a).toNat < k * (unitBytes .w16).toNat := by
      rw [unitAddr_offset] <;> simp only [show (unitBytes .w16).toNat = 2 from rfl] at hk ⊢ <;> omega
    have h' : (unitAddr .w16 a j + 1 - a).toNat < k * (unitBytes .w16).toNat := by
      rw [unitAddr_succ_offset] <;> simp only [show (unitBytes .w16).toNat = 2 from rfl] at hk ⊢ <;> omega
    rw [State.readUnit, s.byteAt_writeUnit_outside v hk (.inl h), s.byteAt_writeUnit_outside v hk (.inl h'),
      State.writeUnit_par, State.readUnit]

end

/-! ### One receive dispatch -/

/-- What a dispatch that serves receive alone leaves (R180). -/
def State.rxServed (s : State) (w : FrameWidth) : State := (s.rxUnit w).tail .rx w

theorem State.rxUnit_rx (s : State) (w : FrameWidth) : (s.rxUnit w).rx = s.rx := by
  rw [State.rxUnit, State.writeUnit_rx]
  rfl

theorem State.rxUnit_cr2 (s : State) (w : FrameWidth) : (s.rxUnit w).cr2 = s.cr2 := by
  rw [State.rxUnit, State.writeUnit_cr2]
  rfl

theorem State.rxUnit_rxSpan (s : State) (w : FrameWidth) : (s.rxUnit w).rxSpan = s.rxSpan := by
  rw [State.rxUnit, State.writeUnit_rxSpan]
  rfl

/-- More units are left: the cursor and the count move, DISP returns (R160). -/
theorem State.rxServed_more {s : State} {w : FrameWidth} (h : s.rx.len ≠ unitBytes w) :
    (s.rxServed w).cr2 = s.cr2 ∧ (s.rxServed w).rxSpan = s.rxSpan ∧
      (s.rxServed w).rx = ⟨s.rx.len - unitBytes w, s.rx.cur + unitBytes w, s.rx.state, s.rx.sel⟩ := by
  have hmore : s.rxServed w = ((s.rxUnit w).moveOn .rx w).atLine .idle :=
    if_neg (by rw [State.desc, State.rxUnit_rx]; exact h)
  rw [hmore, ← s.rxUnit_rx w, ← s.rxUnit_cr2 w, ← s.rxUnit_rxSpan w]
  exact ⟨rfl, rfl, rfl⟩

/-- The last unit: receive is closed and disarmed (R166). -/
theorem State.rxServed_last {s : State} {w : FrameWidth} (h : s.rx.len = unitBytes w) :
    (s.rxServed w).enabled .rx = false ∧ (s.rxServed w).rx = Desc.closed := by
  have hlast : s.rxServed w = (s.rxUnit w).release .rx := if_pos (by rw [State.desc, State.rxUnit_rx]; exact h)
  rw [hlast]
  exact ⟨getLsbD_clrBit_same _ (enableBit_lt .rx), rfl⟩

/-- What the tail of a step leaves as it was. -/
theorem State.tail_frame (s : State) (d : Dir) (w : FrameWidth) :
    (s.tail d w).par = s.par ∧ (s.tail d w).hph = s.hph ∧ (s.tail d w).dfault = s.dfault ∧
      (s.tail d w).txlog = s.txlog ∧ (s.tail d w).sched = s.sched ∧ (s.tail d w).sr = s.sr := by
  unfold State.tail
  split <;> cases d <;> exact ⟨rfl, rfl, rfl, rfl, rfl, rfl⟩

/-- What a dispatch that serves receive alone leaves as it was, and RXNE (R134). -/
theorem State.rxServed_frame (s : State) (w : FrameWidth) :
    (s.rxServed w).par = s.par ∧ (s.rxServed w).hph = s.hph ∧ (s.rxServed w).dfault = s.dfault ∧
      (s.rxServed w).txlog = s.txlog ∧ (s.rxServed w).sched = s.sched ∧ (s.rxServed w).sr = clrBit s.sr (flagBit .rx) := by
  have hunit : (s.rxUnit w).par = s.par ∧ (s.rxUnit w).hph = s.hph ∧ (s.rxUnit w).dfault = s.dfault ∧
      (s.rxUnit w).txlog = s.txlog ∧ (s.rxUnit w).sched = s.sched ∧ (s.rxUnit w).sr = clrBit s.sr (flagBit .rx) := by
    simp only [State.rxUnit, State.writeUnit_par, State.writeUnit_hph, State.writeUnit_dfault, State.writeUnit_txlog,
      State.writeUnit_sched, State.writeUnit_sr]
    exact ⟨rfl, rfl, rfl, rfl, rfl, rfl⟩
  obtain ⟨hpar, hhph, hdfault, htxlog, hsched, hsr⟩ := (s.rxUnit w).tail_frame .rx w
  simpa only [State.rxServed, hpar, hhph, hdfault, htxlog, hsched, hsr] using hunit

/-- The transmit descriptor is not touched by a receive (R31). -/
theorem State.rxServed_tx (s : State) (w : FrameWidth) : (s.rxServed w).tx = s.tx := by
  have htail : (s.rxServed w).tx = (s.rxUnit w).tx := by
    unfold State.rxServed State.tail
    split <;> rfl
  rw [htail, State.rxUnit, State.writeUnit_tx]
  rfl

/-- The transmit enable bit is not touched by a receive (R165). -/
theorem State.gateOpen_tx_rxServed (s : State) (w : FrameWidth) (v : Half) :
    gateOpen .tx (s.rxServed w).cr2 v = gateOpen .tx s.cr2 v := by
  rw [← s.rxUnit_cr2 w, State.rxServed, State.tail]
  split
  · exact (gateOpen_clrBit_other (d := .rx) (e := .tx) (by decide) _ v).1
  · rfl

/-- The canonical form is kept. -/
theorem State.rxServed_wf {s : State} (w : FrameWidth) (hw : s.mem.wf = true) : (s.rxServed w).mem.wf = true := by
  rw [State.rxServed, State.tail_mem]
  exact State.writeUnit_wf (s := s.drReadEffect) w _ _ hw

/-- A unit after a dispatch is as after its store. -/
theorem State.readUnit_rxServed (s : State) (w : FrameWidth) (x : Addr) :
    (s.rxServed w).readUnit w x = (s.drReadEffect.writeUnit w s.rx.cur (s.drValue w)).readUnit w x := by
  obtain ⟨hpar, -⟩ := (s.rxUnit w).tail_frame .rx w
  exact State.readUnit_congr hpar (State.tail_mem _ .rx w) w x

/-- The stored unit reads back at frame width (R103, R163, R164). -/
theorem State.readUnit_rxServed_cur {s : State} (w : FrameWidth) (hw : s.mem.wf = true) :
    (s.rxServed w).readUnit w s.rx.cur = frameZext w s.drRx := by
  rw [State.readUnit_rxServed, State.readUnit_writeUnit_same (s := s.drReadEffect) w _ _ hw]
  cases w with
  | w8 => exact congrArg (BitVec.setWidth 16) (extractLsb'_setWidth_byte _)
  | w16 => rfl

/-- The units stored before are left (R163, R164). -/
theorem State.readUnit_rxServed_earlier {s : State} {w : FrameWidth} {a : Addr} {j k : Nat}
    (hcur : s.rx.cur = unitAddr w a k) (hj : j < k) (hk : (k + 1) * (unitBytes w).toNat ≤ 2 ^ 32) :
    (s.rxServed w).readUnit w (unitAddr w a j) = s.readUnit w (unitAddr w a j) := by
  rw [State.readUnit_rxServed, hcur, State.readUnit_writeUnit_earlier _ _ hj hk]
  exact State.readUnit_congr rfl rfl w _

/-- Every byte whose offset is not of the unit is left (R163, R164). -/
theorem State.byteAt_rxServed_outside {s : State} {w : FrameWidth} {a x : Addr} {k : Nat}
    (hcur : s.rx.cur = unitAddr w a k) (hk : (k + 1) * (unitBytes w).toNat ≤ 2 ^ 32)
    (hx : (k + 1) * (unitBytes w).toNat ≤ (x - a).toNat) : (s.rxServed w).byteAt x = s.byteAt x := by
  rw [State.rxServed, State.byteAt_tail, State.rxUnit, hcur]
  exact State.byteAt_writeUnit_outside s.drReadEffect _ hk (.inr hx)

/-- A dispatch with the receive gate alone open serves receive alone (R180, R181). -/
theorem exec_irqDispatch_rx {s : State} {w : FrameWidth} (hb : s.dispMayStart = true)
    (htx : gateOpen .tx s.cr2 s.sr = false) (hrx : gateOpen .rx s.cr2 s.sr = true) (hsel : s.rx.sel = Sel.ofWidth w)
    (hacc : s.stepAccessFault .rx w s.rx.cur = none) : exec .irqDispatch s = .next (s.rxServed w) := by
  obtain ⟨-, hf, -⟩ := s.dispMayStart_iff.1 hb
  rw [exec_irqDispatch hb, runDisp_tx_closed hf htx, runDisp_rx_bound 12 hf hrx hsel, runStep_rx hf hacc]
  rfl

/-! ### The receive transfer -/

/-- What holds after k of the frames of a receive that began at s (R169). -/
structure RxProgress (s : State) (w : FrameWidth) (vs : List Half) (k : Nat) (t : State) : Prop where
  mayStart : t.dispMayStart = true
  txGate : gateOpen .tx t.cr2 t.sr = false
  par : t.par = s.par
  env : s.par.env = .free ∨ t.rxne = false
  wf : t.mem.wf = true
  tx : t.tx = s.tx
  txlog : t.txlog = s.txlog
  stored : ∀ j (h : j < vs.length), j < k → t.readUnit w (unitAddr w s.rx.cur j) = frameZext w vs[j]
  others : ∀ a : Addr, s.rx.len.toNat ≤ (a - s.rx.cur).toNat → t.byteAt a = s.byteAt a
  more : k < vs.length → t.enabled .rx = true ∧ t.rxSpan = s.rxSpan ∧
    t.rx = ⟨unitsLeft w s.rx.len k, unitAddr w s.rx.cur k, s.rx.state, s.rx.sel⟩
  done : k = vs.length → t.enabled .rx = false ∧ t.rx = Desc.closed

/-- PERIPH delivers a frame, under RefEnv while RXNE is 0 (R203, R205). -/
theorem periphStep_rx {s : State} (v : Half) (h : s.par.env = .free ∨ s.rxne = false) :
    periphStep (.rx v) s = s.deliver v := by
  cases henv : s.par.env with
  | free => simp only [periphStep, henv, periphFree]
  | ref =>
    have hrxne : s.rxne = false := h.resolve_left (by rw [henv]; decide)
    simp [periphStep, henv, periphRef, hrxne]

/-- A frame delivered leaves the transmit gate. -/
theorem gateOpen_tx_setBit_rxne (c v : Half) : gateOpen .tx c (setBit v (flagBit .rx)) = gateOpen .tx c v := by
  rw [gateOpen, getLsbD_setBit _ _ _ (flagBit_lt .tx)]
  rfl

section
variable {s : State} {w : FrameWidth} {vs : List Half} {k : Nat}

/-- One round serves the next frame: PERIPH delivers it, the dispatch finds the receive gate alone open (R181). -/
theorem RxProgress.round {t : State} {q : List Turn} {v : Half} (h : RxProgress s w vs k t) (hk : k < vs.length)
    (hsel : s.rx.sel = Sel.ofWidth w) (hacc : s.stepAccessFault .rx w (unitAddr w s.rx.cur k) = none)
    (hs : t.sched = roundOf (.rx v) ++ q) :
    Host.Core.run core 2 t = .next (((t.deliver v).withSched q).rxServed w) := by
  obtain ⟨hen, hspan, hrx⟩ := h.more hk
  have hp : periphStep (.rx v) (t.withSched (.dispOp :: q)) = (t.deliver v).withSched (.dispOp :: q) :=
    periphStep_rx (s := t.withSched (.dispOp :: q)) v (h.env.imp_left fun e => (congrArg Params.env h.par).trans e)
  have hfault : t.stepAccessFault .rx w t.rx.cur = none := by
    rw [State.stepAccessFault_congr (s := s) (d := .rx) h.par hspan, hrx, hacc]
  have hbound : t.rx.sel = Sel.ofWidth w := by rw [hrx, hsel]
  have hrxne : (setBit t.sr (flagBit .rx)).getLsbD (flagBit .rx) = true := by
    simp [getLsbD_setBit _ _ _ (flagBit_lt .rx)]
  exact run_round (t := t.deliver v) hs hp h.mayStart (exec_irqDispatch_rx (s := (t.deliver v).withSched q) h.mayStart
    ((gateOpen_tx_setBit_rxne _ _).trans h.txGate) ((gateOpen_iff .rx _ _).2 ⟨hen, hrxne⟩) hbound hfault)

/-- What a dispatch leaves of k frames done is k + 1 frames done (R160, R166). -/
theorem RxProgress.served {t : State} (q : List Turn) (h : RxProgress s w vs k t) (hk : k < vs.length)
    (hlen : s.rx.len.toNat = vs.length * (unitBytes w).toNat) :
    RxProgress s w vs (k + 1) (((t.deliver vs[k]).withSched q).rxServed w) := by
  obtain ⟨hen, hspan, hrx⟩ := h.more hk
  obtain ⟨-, hf, hatomic⟩ := t.dispMayStart_iff.1 h.mayStart
  obtain ⟨hpar, hhph, hdfault, htxlog, -, hsr⟩ := State.rxServed_frame ((t.deliver vs[k]).withSched q) w
  have hspace : (k + 1) * (unitBytes w).toNat ≤ s.rx.len.toNat := by
    rw [hlen]
    exact Nat.mul_le_mul_right _ hk
  have hspace' : (k + 1) * (unitBytes w).toNat ≤ 2 ^ 32 := Nat.le_of_lt (Nat.lt_of_le_of_lt hspace s.rx.len.isLt)
  have hcur : t.rx.cur = unitAddr w s.rx.cur k := congrArg Desc.cur hrx
  have hlast : t.rx.len = unitBytes w ↔ k + 1 = vs.length := by
    rw [hrx]
    exact unitsLeft_eq_unit_iff hlen hk
  refine
    { mayStart := ?mayStart, txGate := ?txGate, par := hpar.trans h.par, env := ?env, wf := State.rxServed_wf w h.wf
      tx := (State.rxServed_tx _ w).trans h.tx, txlog := htxlog.trans h.txlog, stored := ?stored, others := ?others
      more := ?more, done := ?done }
  case mayStart =>
    refine (State.dispMayStart_iff _).2 ⟨State.tail_dph _ .rx w, hdfault.trans hf, fun ha => hhph.trans (hatomic ?_)⟩
    rw [hpar] at ha
    exact ha
  case txGate =>
    rw [State.gateOpen_tx_rxServed, hsr]
    exact ((gateOpen_clrBit_other (d := .rx) (e := .tx) (by decide) _ _).2.trans (gateOpen_tx_setBit_rxne _ _)).trans
      h.txGate
  case env =>
    refine .inr ?_
    rw [State.rxne, hsr]
    exact getLsbD_clrBit_same _ (flagBit_lt .rx)
  case stored =>
    intro j hj hjk
    rcases Nat.lt_succ_iff_lt_or_eq.1 hjk with hlt | rfl
    · rw [State.readUnit_rxServed_earlier (s := (t.deliver vs[k]).withSched q) hcur hlt hspace', ← h.stored j hj hlt]
      exact State.readUnit_congr rfl rfl w _
    · rw [← hcur]
      exact State.readUnit_rxServed_cur (s := (t.deliver vs[j]).withSched q) w h.wf
  case others =>
    intro x hx
    rw [State.byteAt_rxServed_outside (s := (t.deliver vs[k]).withSched q) hcur hspace' (hspace.trans hx)]
    exact h.others x hx
  case more =>
    intro hlt
    obtain ⟨hcr2, hspan', hrx'⟩ :=
      State.rxServed_more (s := (t.deliver vs[k]).withSched q) (mt hlast.1 (Nat.ne_of_lt hlt))
    refine ⟨(congrArg (BitVec.getLsbD · (enableBit .rx)) hcr2).trans hen, hspan'.trans hspan, hrx'.trans ?_⟩
    show (⟨t.rx.len - unitBytes w, t.rx.cur + unitBytes w, t.rx.state, t.rx.sel⟩ : Desc) = _
    rw [hrx, unitAddr_succ, unitsLeft_succ]
  case done =>
    exact fun hn => State.rxServed_last (s := (t.deliver vs[k]).withSched q) (hlast.2 hn)

end

/-- A receive about to start has stored no frame. -/
theorem RxProgress.zero {s : State} {w : FrameWidth} {vs : List Half} (q : List Turn) (hw : s.mem.wf = true)
    (henv : s.par.env = .free ∨ s.rxne = false) (hb : s.dispMayStart = true) (hen : s.enabled .rx = true)
    (htx : gateOpen .tx s.cr2 s.sr = false) (hvs : vs ≠ []) : RxProgress s w vs 0 (s.withSched q) := by
  refine ⟨hb, htx, rfl, henv, hw, rfl, rfl, fun j _ hj => absurd hj (Nat.not_lt_zero j), fun _ _ => rfl,
    fun _ => ⟨hen, rfl, ?_⟩, fun h => absurd (List.length_eq_zero_iff.1 h.symm) hvs⟩
  rw [unitAddr_zero, unitsLeft_zero]
  rfl

/-- Settles O60: each round stores one more frame, and the last one closes the transfer. -/
theorem receiveTerminates : Obligations.ReceiveTerminates := by
  intro s w vs rest hw henv hb hen htx _ hsel hvs hlen hacc
  have hsched : vs.flatMap (fun v => [Turn.periph (.rx v), Turn.dispOp]) = (vs.map .rx).flatMap roundOf := by
    rw [List.flatMap_map]
    rfl
  obtain ⟨t, hrun, ht, hq⟩ := run_rounds (vs.map .rx) (P := RxProgress s w vs) (q := rest)
    (RxProgress.zero _ hw henv hb hen htx hvs) rfl fun j hj t q h hs => by
      rw [List.length_map] at hj
      rw [List.getElem_map] at hs
      obtain ⟨-, -, -, -, hq, -⟩ := State.rxServed_frame ((t.deliver vs[j]).withSched q) w
      exact ⟨_, h.round hj hsel (hacc j hj) hs, h.served q hj hlen, hq⟩
  rw [List.length_map] at hrun ht
  obtain ⟨hdph, hf, -⟩ := t.dispMayStart_iff.1 ht.mayStart
  obtain ⟨hdisarmed, hclosed⟩ := ht.done rfl
  refine ⟨t, ?_, hf, hdph, hq, ht.tx, ht.txlog, hdisarmed, hclosed, fun j hj => ht.stored j hj hj, ht.others⟩
  rw [hsched]
  exact hrun

end Sys2Proof.Machine
end
